-- ==== Sys2Proof/Word.lean ====
section
/-! DEFINITION. The word and byte types of the core (00_scope R8, R10, R21). -/

namespace Sys2Proof

/-- A 32-bit word: the width of every register and of the bus (R8, R21). Unsigned; never read as signed (R10). -/
abbrev Word := BitVec 32

/-- One byte of a message or of a digest; bytes exist on the host's side only (R60, R61). -/
abbrev Byte := BitVec 8

end Sys2Proof
end

