-- ==== Sys2Proof/Syntax.lean ====
section
/-! DEFINITION. The syntax of the core's commands (30_encoding R85), of their assembler text (R95), and of the host's
accesses and program text (R52, R53, R97, R98). -/

namespace Sys2Proof

/-- A command of the core, one constructor per row of the opcode map (30_encoding R85).
A field of an encoding is a bit vector of the field's width, so a shift amount is 0..31 and a variant code 0..7 by type (R83). -/
inductive Instr where
  | nop
  | add
  | and
  | or
  | xor
  | not
  | rotr (n : BitVec 5)
  | rotl (n : BitVec 5)
  | shr (n : BitVec 5)
  | ch
  | maj
  | parity
  | bsig0
  | bsig1
  | ssig0
  | ssig1
  | init (var : BitVec 3)
  | block
  | beginBlock
  | round
  | endBlock
  | sreset
  | clrerr
  deriving DecidableEq, Repr

/-- The mnemonics of 30_encoding R85, as names without operands. -/
inductive Mnemonic where
  | nop | add | and | or | xor | not | rotr | rotl | shr
  | ch | maj | parity | bsig0 | bsig1 | ssig0 | ssig1
  | init | block | beginBlock | round | endBlock | sreset | clrerr
  deriving DecidableEq, Repr

/-- The three formats of 30_encoding R82: no operand, a shift amount, a variant code. -/
inductive Format where
  | n | s | v
  deriving DecidableEq, Repr

/-- The format of each mnemonic (30_encoding R85, third column). -/
def Mnemonic.format : Mnemonic → Format
  | .rotr => .s
  | .rotl => .s
  | .shr => .s
  | .init => .v
  | .nop | .add | .and | .or | .xor | .not => .n
  | .ch | .maj | .parity | .bsig0 | .bsig1 | .ssig0 | .ssig1 => .n
  | .block | .beginBlock | .round | .endBlock | .sreset | .clrerr => .n

/-- A command without its operand. -/
def Instr.mnemonic : Instr → Mnemonic
  | .nop => .nop
  | .add => .add
  | .and => .and
  | .or => .or
  | .xor => .xor
  | .not => .not
  | .rotr _ => .rotr
  | .rotl _ => .rotl
  | .shr _ => .shr
  | .ch => .ch
  | .maj => .maj
  | .parity => .parity
  | .bsig0 => .bsig0
  | .bsig1 => .bsig1
  | .ssig0 => .ssig0
  | .ssig1 => .ssig1
  | .init _ => .init
  | .block => .block
  | .beginBlock => .beginBlock
  | .round => .round
  | .endBlock => .endBlock
  | .sreset => .sreset
  | .clrerr => .clrerr

/-- The two ways a command word fails to decode (30_encoding R91). -/
inductive DecodeError where
  /-- the OPCODE is unassigned (R86) -/
  | illegalOpcode
  /-- an assigned OPCODE with a bit outside its format's allowed mask (R87) -/
  | reservedBits
  deriving DecidableEq, Repr

/-- What the decoder answers: a command or one of the two errors (30_encoding R91). -/
inductive Decoded where
  | command (i : Instr)
  | error (e : DecodeError)
  deriving DecidableEq, Repr

/-- The variant names of the assembler (30_encoding R95); codes 5..7 have no name. -/
inductive VariantName where
  | sha1 | sha224 | sha256 | sha384 | sha512
  deriving DecidableEq, Repr

/-- An operand as an assembler text writes it: a decimal number of any size, or a variant name (30_encoding R95). -/
inductive AsmOperand where
  | number (k : Nat)
  | name (v : VariantName)
  deriving DecidableEq, Repr

/-- A command as an assembler text writes it, before any check (30_encoding R95). -/
structure AsmLine where
  mnemonic : Mnemonic
  operand : Option AsmOperand
  deriving DecidableEq, Repr

/-- A statement of a host program's text, before any check (30_encoding R97). -/
inductive HostStatement where
  /-- `WR off, v` -/
  | wr (off v : Nat)
  /-- `RD off -> x` -/
  | rd (off : Nat)
  /-- `CMD <command>` -/
  | cmd (line : AsmLine)
  /-- `WAIT` -/
  | wait
  deriving DecidableEq, Repr

/-- A word of the register window, by bits 7:2 of its 8-bit byte offset: the offset is a multiple of 4 in 0x00..0xFC
by type, so no sub-word and no misaligned access exists (20_memory R50, R63). Log entry 6. -/
abbrev Offset := BitVec 6

/-- The byte offset of a word of the window (20_memory R50). -/
def Offset.byteOffset (o : Offset) : Nat := 4 * o.toNat

/-- An access the host makes: `HostWrite`, `HostRead`, or the poll loop WAIT (20_memory R52, R53; 30_encoding R98). -/
inductive HostOp where
  | write (off : Offset) (v : Word)
  | read (off : Offset)
  | wait
  deriving DecidableEq, Repr

end Sys2Proof
end

