-- ==== Sys2Proof/WellFormed.lean ====
section
/-! DEFINITION. The checks on texts: an assembler line (30_encoding R95) and a host statement (R97, 20_memory R63).
A term of `Instr` or `HostOp` needs no check: the widths of its fields are its types (log entry 17).
The check on a command WORD (30_encoding R82) stands with the decoder, in Decode.lean. -/

namespace Sys2Proof

/-- What an assembler accepts (30_encoding R95): no operand for format N; a number 0..31 for format S; a number 0..7
or a variant name for format V. "An assembler refuses `n` outside 0..31 and `k` outside 0..7". -/
def AsmLine.wellFormed (a : AsmLine) : Bool :=
  match a.mnemonic.format, a.operand with
  | .n, none => true
  | .s, some (.number n) => decide (n ≤ 31)
  | .v, some (.number k) => decide (k ≤ 7)
  | .v, some (.name _) => true
  | .n, some _ => false
  | .s, none => false
  | .s, some (.name _) => false
  | .v, none => false

/-- An offset a 32-bit access may have: "a multiple of 4 in 0x00..0xFC" (20_memory R52, R53, R63). -/
def offsetWellFormed (off : Nat) : Bool := decide (off % 4 = 0 ∧ off ≤ 0xFC)

/-- What a host program's text may say (30_encoding R97; 20_memory R52, R53, R63). -/
def HostStatement.wellFormed : HostStatement → Bool
  | .wr off v => offsetWellFormed off && decide (v < 2 ^ 32)
  | .rd off => offsetWellFormed off
  | .cmd line => line.wellFormed
  | .wait => true

end Sys2Proof
end

