-- ==== Sys2Proof/Decode.lean ====
section
/-! DEFINITION. The command encoding (30_encoding): opcodes, formats, the total decoder, the encoder, and the
assembler of R95 and R97. -/

namespace Sys2Proof

/-- The OPCODE of each mnemonic (30_encoding R85, first column). -/
def Mnemonic.opcode : Mnemonic → BitVec 8
  | .nop => 0x00
  | .add => 0x01
  | .and => 0x02
  | .or => 0x03
  | .xor => 0x04
  | .not => 0x05
  | .rotr => 0x06
  | .rotl => 0x07
  | .shr => 0x08
  | .ch => 0x10
  | .maj => 0x11
  | .parity => 0x12
  | .bsig0 => 0x13
  | .bsig1 => 0x14
  | .ssig0 => 0x15
  | .ssig1 => 0x16
  | .init => 0x20
  | .block => 0x21
  | .beginBlock => 0x22
  | .round => 0x23
  | .endBlock => 0x24
  | .sreset => 0x30
  | .clrerr => 0x31

/-- The rows of the opcode map (30_encoding R85). -/
def opcodeMap : List Mnemonic :=
  [.nop, .add, .and, .or, .xor, .not, .rotr, .rotl, .shr]
    ++ [.ch, .maj, .parity, .bsig0, .bsig1, .ssig0, .ssig1]
    ++ [.init, .block, .beginBlock, .round, .endBlock]
    ++ [.sreset, .clrerr]

/-- The mnemonic an OPCODE selects, or none where it is unassigned (30_encoding R85, R86). -/
def Mnemonic.ofOpcode (op : BitVec 8) : Option Mnemonic :=
  opcodeMap.find? fun row => row.opcode == op

/-- The bits a format lets be nonzero (30_encoding R82). -/
def Format.allowedMask : Format → Word
  | .n => 0x000000FF
  | .s => 0x00001FFF
  | .v => 0x000700FF

/-- "A command word is well-formed for its opcode's format when `c & ~allowed_mask = 0`" (30_encoding R82). -/
def Format.wordWellFormed (f : Format) (c : Word) : Bool := (c &&& ~~~ f.allowedMask) == 0

/-- The OPCODE field, bits 7:0 (30_encoding R81). -/
def opcodeField (c : Word) : BitVec 8 := c.extractLsb' 0 8

/-- The SHAMT field, bits 12:8 (30_encoding R81, R83). -/
def shamtField (c : Word) : BitVec 5 := c.extractLsb' 8 5

/-- The VARIANT field, bits 18:16 (30_encoding R81, R83). -/
def variantField (c : Word) : BitVec 3 := c.extractLsb' 16 3

/-- The command of a mnemonic with the two operand fields; a format that has no such field ignores it (30_encoding R84). -/
def Mnemonic.instr (n : BitVec 5) (var : BitVec 3) : Mnemonic → Instr
  | .nop => .nop
  | .add => .add
  | .and => .and
  | .or => .or
  | .xor => .xor
  | .not => .not
  | .rotr => .rotr n
  | .rotl => .rotl n
  | .shr => .shr n
  | .ch => .ch
  | .maj => .maj
  | .parity => .parity
  | .bsig0 => .bsig0
  | .bsig1 => .bsig1
  | .ssig0 => .ssig0
  | .ssig1 => .ssig1
  | .init => .init var
  | .block => .block
  | .beginBlock => .beginBlock
  | .round => .round
  | .endBlock => .endBlock
  | .sreset => .sreset
  | .clrerr => .clrerr

/-- The decoder: the first half of `Execute(c)` (30_encoding R90), total over all words (R91). -/
def decode (c : Word) : Decoded :=
  match Mnemonic.ofOpcode (opcodeField c) with
  | none => .error .illegalOpcode
  | some op =>
    if op.format.wordWellFormed c then .command (op.instr (shamtField c) (variantField c))
    else .error .reservedBits

/-- The SHAMT bits of a command's word (30_encoding R82, format S). -/
def Instr.shamtBits : Instr → BitVec 5
  | .rotr n | .rotl n | .shr n => n
  | .nop | .add | .and | .or | .xor | .not => 0
  | .ch | .maj | .parity | .bsig0 | .bsig1 | .ssig0 | .ssig1 => 0
  | .init _ | .block | .beginBlock | .round | .endBlock | .sreset | .clrerr => 0

/-- The VARIANT bits of a command's word (30_encoding R82, format V). -/
def Instr.variantBits : Instr → BitVec 3
  | .init var => var
  | .nop | .add | .and | .or | .xor | .not | .rotr _ | .rotl _ | .shr _ => 0
  | .ch | .maj | .parity | .bsig0 | .bsig1 | .ssig0 | .ssig1 => 0
  | .block | .beginBlock | .round | .endBlock | .sreset | .clrerr => 0

/-- The encoder: `opcode | n << 8` or `opcode | var << 16` (30_encoding R85, fourth column). -/
def encode (i : Instr) : Word :=
  i.mnemonic.opcode.setWidth 32 ||| (i.shamtBits.setWidth 32 <<< 8) ||| (i.variantBits.setWidth 32 <<< 16)

/-- The command in the low `nbits` bits of `w`, as `decode` reads it: a command is one 32-bit word that a bus write
carries whole, so there is no byte order to settle (30_encoding R80; 20_memory R62). Log entry 12. -/
def decodeTableWord (nbits w : Nat) : Option Instr :=
  match decode (BitVec.ofNat 32 (w % 2 ^ nbits)) with
  | .command i => some i
  | .error _ => none

/-- The code a variant name stands for (30_encoding R95). -/
def VariantName.code : VariantName → Nat
  | .sha1 => 0
  | .sha224 => 1
  | .sha256 => 2
  | .sha384 => 3
  | .sha512 => 4

/-- The number an operand stands for (30_encoding R95). -/
def AsmOperand.value : AsmOperand → Nat
  | .number k => k
  | .name v => v.code

/-- The assembler of 30_encoding R95: the command of an accepted line, none for a refused one. -/
def AsmLine.assemble (a : AsmLine) : Option Instr :=
  if a.wellFormed then
    let k := (a.operand.map AsmOperand.value).getD 0
    some (a.mnemonic.instr (BitVec.ofNat 5 k) (BitVec.ofNat 3 k))
  else none

/-- The window word at a byte offset that is a multiple of 4 in 0x00..0xFC (20_memory R50). -/
def Offset.ofByteOffset (off : Nat) : Offset := BitVec.ofNat 6 (off / 4)

/-- A host statement as the access it stands for; `CMD <command>` is `WR 0x00, <word of command>` (30_encoding R97). -/
def HostStatement.lower (st : HostStatement) : Option HostOp :=
  if st.wellFormed then
    match st with
    | .wr off v => some (.write (Offset.ofByteOffset off) (BitVec.ofNat 32 v))
    | .rd off => some (.read (Offset.ofByteOffset off))
    | .cmd line => line.assemble.map fun i => .write (Offset.ofByteOffset 0x00) (encode i)
    | .wait => some .wait
  else none

end Sys2Proof
end

