-- ==== Sys2Proof/Machine/Functions.lean ====
section
/-! DEFINITION. The word operators of 00_scope R11 and the function units of 41_function_units R130, as pure functions. -/

namespace Sys2Proof.Machine

/-- `a +32 b` (00_scope R11): the carry out of bit 31 is discarded (40_word_alu R111). -/
def add32 (a b : Word) : Word := a + b

/-- `rotr32(x, n)` for 0 ≤ n ≤ 31 (00_scope R11). -/
def rotr32 (x : Word) (n : Nat) : Word := (x >>> n) ||| (x <<< (32 - n))

/-- `rotl32(x, n)` for 0 ≤ n ≤ 31 (00_scope R11). -/
def rotl32 (x : Word) (n : Nat) : Word := (x <<< n) ||| (x >>> (32 - n))

/-- `shr32(x, n)` for 0 ≤ n ≤ 31, zero-filled from the left (00_scope R11). -/
def shr32 (x : Word) (n : Nat) : Word := x >>> n

/-- Choose (41_function_units R130). -/
def ch (x y z : Word) : Word := (x &&& y) ^^^ (~~~ x &&& z)

/-- Majority (41_function_units R130). -/
def maj (x y z : Word) : Word := (x &&& y) ^^^ (x &&& z) ^^^ (y &&& z)

/-- Three-way exclusive or (41_function_units R130). -/
def parity (x y z : Word) : Word := x ^^^ y ^^^ z

/-- Σ0 of SHA-256 (41_function_units R130). -/
def bsig0 (x : Word) : Word := rotr32 x 2 ^^^ rotr32 x 13 ^^^ rotr32 x 22

/-- Σ1 of SHA-256 (41_function_units R130). -/
def bsig1 (x : Word) : Word := rotr32 x 6 ^^^ rotr32 x 11 ^^^ rotr32 x 25

/-- σ0 of SHA-256 (41_function_units R130). -/
def ssig0 (x : Word) : Word := rotr32 x 7 ^^^ rotr32 x 18 ^^^ shr32 x 3

/-- σ1 of SHA-256 (41_function_units R130). -/
def ssig1 (x : Word) : Word := rotr32 x 17 ^^^ rotr32 x 19 ^^^ shr32 x 10

end Sys2Proof.Machine
end

