-- ==== Sys2Proof/Machine/VariantTable.lean ====
section
/-! DEFINITION. The variant table (42_compression R160) and the constants it names (R141 to R145): fixed logic, not state
(00_scope R19, 42_compression R140). Log entry 15. -/

namespace Sys2Proof.Machine

/-- The variant codes INIT accepts: 0 SHA-1, 1 SHA-224, 2 SHA-256 (42_compression R160, R169). -/
def supported (var : BitVec 3) : Bool := var == 0 || var == 1 || var == 2

/-- N, the round count (00_scope R8, R16; 42_compression R160): 80 for SHA-1, 64 for SHA-224 and SHA-256.
An unsupported code is in no reachable state with VALID set; log entry 10. -/
def roundCount (var : BitVec 3) : Nat := if var = 0 then 80 else 64

/-- k, the number of hash-state words (00_scope R8, R16; 42_compression R160): 5 for SHA-1, 8 for SHA-224 and SHA-256. -/
def stateWords (var : BitVec 3) : Nat := if var = 0 then 5 else 8

/-- The number of digest words of a variant (10_state R34): 5, 7, 8. -/
def digestWords (var : BitVec 3) : BitVec 4 := if var = 0 then 5 else if var = 1 then 7 else 8

/-- The SHA-1 initial hash value; words 5..7 are set to 0 (42_compression R141, R169). -/
def ivSha1 : Vector Word 8 :=
  #v[0x67452301, 0xEFCDAB89, 0x98BADCFE, 0x10325476, 0xC3D2E1F0, 0x00000000, 0x00000000, 0x00000000]

/-- The SHA-224 initial hash value (42_compression R142). -/
def ivSha224 : Vector Word 8 :=
  #v[0xC1059ED8, 0x367CD507, 0x3070DD17, 0xF70E5939, 0xFFC00B31, 0x68581511, 0x64F98FA7, 0xBEFA4FA4]

/-- The SHA-256 initial hash value (42_compression R143). -/
def ivSha256 : Vector Word 8 :=
  #v[0x6A09E667, 0xBB67AE85, 0x3C6EF372, 0xA54FF53A, 0x510E527F, 0x9B05688C, 0x1F83D9AB, 0x5BE0CD19]

/-- The initial hash value INIT loads (42_compression R169). -/
def initialHash (var : BitVec 3) : Vector Word 8 :=
  if var = 0 then ivSha1 else if var = 1 then ivSha224 else ivSha256

/-- The SHA-1 round constant `K1(t)`, 0 ≤ t ≤ 79 (42_compression R144). -/
def k1 (t : Nat) : Word :=
  if t < 20 then 0x5A827999 else if t < 40 then 0x6ED9EBA1 else if t < 60 then 0x8F1BBCDC else 0xCA62C1D6

/-- The SHA-1 logical function `f_t`, 0 ≤ t ≤ 79 (42_compression R144). -/
def sha1Function (t : Nat) (b c d : Word) : Word :=
  if t < 20 then ch b c d else if t < 40 then parity b c d else if t < 60 then maj b c d else parity b c d

/-- The table of 42_compression R145, row by row. -/
def k256Table : List Word :=
  [0x428A2F98, 0x71374491, 0xB5C0FBCF, 0xE9B5DBA5, 0x3956C25B, 0x59F111F1, 0x923F82A4, 0xAB1C5ED5]
    ++ [0xD807AA98, 0x12835B01, 0x243185BE, 0x550C7DC3, 0x72BE5D74, 0x80DEB1FE, 0x9BDC06A7, 0xC19BF174]
    ++ [0xE49B69C1, 0xEFBE4786, 0x0FC19DC6, 0x240CA1CC, 0x2DE92C6F, 0x4A7484AA, 0x5CB0A9DC, 0x76F988DA]
    ++ [0x983E5152, 0xA831C66D, 0xB00327C8, 0xBF597FC7, 0xC6E00BF3, 0xD5A79147, 0x06CA6351, 0x14292967]
    ++ [0x27B70A85, 0x2E1B2138, 0x4D2C6DFC, 0x53380D13, 0x650A7354, 0x766A0ABB, 0x81C2C92E, 0x92722C85]
    ++ [0xA2BFE8A1, 0xA81A664B, 0xC24B8B70, 0xC76C51A3, 0xD192E819, 0xD6990624, 0xF40E3585, 0x106AA070]
    ++ [0x19A4C116, 0x1E376C08, 0x2748774C, 0x34B0BCB5, 0x391C0CB3, 0x4ED8AA4A, 0x5B9CCA4F, 0x682E6FF3]
    ++ [0x748F82EE, 0x78A5636F, 0x84C87814, 0x8CC70208, 0x90BEFFFA, 0xA4506CEB, 0xBEF9A3F7, 0xC67178F2]

/-- `K256[t]`, 0 ≤ t ≤ 63 (42_compression R145); no round reads past the table, since T < N ≤ 64 there. -/
def k256 (t : Nat) : Word := k256Table.getD t 0

end Sys2Proof.Machine
end

