-- ==== Sys2Proof/Machine/Compress.lean ====
section
/-! DEFINITION. The round transitions (42_compression R161, R162), the schedule window's advance (R154), and, beside
the machine, the message schedule `W` (R150 to R152) and the compression function (R165) as pure functions. -/

namespace Sys2Proof.Machine

/-- The SHA-1 round transition for round `t` with schedule word `wt` (42_compression R161); words 5..7 unchanged. -/
def sha1Transition (t : Nat) (v : Vector Word 8) (wt : Word) : Vector Word 8 :=
  let tmp := add32 (add32 (add32 (add32 (rotl32 v[0] 5) (sha1Function t v[1] v[2] v[3])) v[4]) (k1 t)) wt
  #v[tmp, v[0], rotl32 v[1] 30, v[2], v[3], v[5], v[6], v[7]]

/-- The SHA-224 and SHA-256 round transition for round `t` with schedule word `wt` (42_compression R162). -/
def sha2Transition (t : Nat) (v : Vector Word 8) (wt : Word) : Vector Word 8 :=
  let t1 := add32 (add32 (add32 (add32 v[7] (bsig1 v[4])) (ch v[4] v[5] v[6])) (k256 t)) wt
  let t2 := add32 (bsig0 v[0]) (maj v[0] v[1] v[2])
  #v[add32 t1 t2, v[0], v[1], v[2], add32 v[3] t1, v[4], v[5], v[6]]

/-- The round transition of a variant (42_compression R166). -/
def transition (var : BitVec 3) (t : Nat) (v : Vector Word 8) (wt : Word) : Vector Word 8 :=
  if var = 0 then sha1Transition t v wt else sha2Transition t v wt

/-- The word the generator computes from the window `S` (42_compression R154). -/
def newScheduleWord (var : BitVec 3) (s : Vector Word 16) : Word :=
  if var = 0 then rotl32 (s[13] ^^^ s[8] ^^^ s[2] ^^^ s[0]) 1
  else add32 (add32 (add32 (ssig1 s[14]) s[9]) (ssig0 s[1])) s[0]

/-- `ScheduleAdvance()` (42_compression R154): the window shifts down by one and takes the new word at index 15. -/
def scheduleAdvance (var : BitVec 3) (s : Vector Word 16) : Vector Word 16 :=
  Vector.ofFn fun j => if hj : j.val < 15 then s[j.val + 1] else newScheduleWord var s

/-- The working variables a block starts from (42_compression R170, BeginStep): SHA-1 zeroes words 5..7. -/
def beginVars (var : BitVec 3) (h : Vector Word 8) : Vector Word 8 :=
  if var = 0 then #v[h[0], h[1], h[2], h[3], h[4], 0, 0, 0] else h

/-- The final addition of a block (42_compression R164): `H[i] +32 V[i]` for i < k, the other words unchanged. -/
def addState (var : BitVec 3) (h v : Vector Word 8) : Vector Word 8 :=
  Vector.ofFn fun i => if i.val < stateWords var then add32 h[i] v[i] else h[i]

/-- The recurrence of a variant (42_compression R151, R152): `W[t]` from the list `ws` of `W[0..t-1]`, for t = `ws.length` ≥ 16. -/
def scheduleRecurrence (var : BitVec 3) (ws : List Word) : Word :=
  let back (d : Nat) : Word := ws.getD (ws.length - d) 0
  if var = 0 then rotl32 (back 3 ^^^ back 8 ^^^ back 14 ^^^ back 16) 1
  else add32 (add32 (add32 (ssig1 (back 2)) (back 7)) (ssig0 (back 15))) (back 16)

/-- The list `W[0..15+n]` of a block, in strictly increasing index order (42_compression R150, R155). -/
def scheduleList (var : BitVec 3) (b : Vector Word 16) : Nat → List Word
  | 0 => b.toList
  | n + 1 =>
    let ws := scheduleList var b n
    ws ++ [scheduleRecurrence var ws]

/-- The message schedule `W[t]` of a block (42_compression R150). -/
def scheduleWord (var : BitVec 3) (b : Vector Word 16) (t : Nat) : Word := (scheduleList var b (t - 15)).getD t 0

/-- The working variables after the first `n` rounds of a block, from the words `w` of its schedule (42_compression R165). -/
def roundsFrom (var : BitVec 3) (w : List Word) (v : Vector Word 8) (n : Nat) : Vector Word 8 :=
  (List.range n).foldl (fun v t => transition var t v (w.getD t 0)) v

/-- The compression function `Compress(var, H0, B)` (42_compression R165), on the 8-word file: for SHA-1 the words 5..7, which are
none of the k = 5 state words, are handed back as they came. Log entry 20. -/
def compress (var : BitVec 3) (h0 : Vector Word 8) (b : Vector Word 16) : Vector Word 8 :=
  addState var h0 (roundsFrom var (scheduleList var b (roundCount var - 16)) (beginVars var h0) (roundCount var))

end Sys2Proof.Machine
end

