-- ==== Sys2Proof/Config.lean ====
section
/-! DEFINITION. What the spec leaves open: the free value of a read while busy, and the window's base address.
Both are constants without a body, so that nothing can be proved from their values. -/

namespace Sys2Proof

/-- The value a host read returns where the spec says "any 32-bit value" (20_memory R53, R58; U1): draw number `n`
of a sequence nothing constrains. Log entry 3. -/
opaque Config.busyRead (n : Nat) : Word

/-- `WindowBase`: where the host's address space holds the register window; the platform's choice, which no rule of the core reads
(00_scope R8, 20_memory R66; U4). Log entry 7. -/
opaque Config.windowBase : Nat

end Sys2Proof
end

