-- ==== Sys2Proof/Machine/State.lean ====
section
/-! DEFINITION. The machine's state (10_state R20), its value after reset (R36), and the reasons a step can stop. -/

namespace Sys2Proof.Machine

/-- The error codes of 60_exceptions R200 that the core can record, by name. -/
inductive CmdError where
  | illegalOpcode
  | reservedBits
  | badVariant
  | noVariant
  | sequence
  | busyWrite
  deriving DecidableEq, Repr

/-- A register of the window, as 20_memory R51 maps it. -/
inductive Register where
  | cmd
  | status
  | opa
  | opb
  | opc
  | result
  | unmapped
  | m (j : Fin 16)
  | h (i : Fin 8)
  | v (i : Fin 8)
  | s (j : Fin 16)
  deriving DecidableEq, Repr

/-- Whose event comes next: a core step, a host access, or the platform's `Reset` (00_scope R17, 70_reset R240). -/
inductive Turn where
  | core
  | host
  | reset
  deriving DecidableEq, Repr

/-- The world around the core: the model's own fields, no state of the core. Log entries 1, 2, 3 and 13. -/
structure Environment where
  /-- the interleaving still to be played; when it is used up, the core goes first while it is busy -/
  turns : List Turn
  /-- the accesses the host has still to make, in program order (20_memory R72) -/
  program : List HostOp
  /-- what the host's reads have returned, oldest first -/
  answers : List Word
  /-- how many unspecified reads have been drawn (20_memory R58) -/
  draws : Nat
  deriving DecidableEq, Repr

/-- The state: the core's own, "exactly the following, and nothing else" (10_state R20), and the world around it.
`STATUS.BUSY` and `STATUS.DWORDS` are computed (R33, R34) and so are no fields. -/
structure State where
  opa : Word
  opb : Word
  opc : Word
  result : Word
  /-- the message block (R27) -/
  m : Vector Word 16
  /-- the hash state (R28) -/
  h : Vector Word 8
  /-- the working variables a..h (R29) -/
  v : Vector Word 8
  /-- the schedule window (R29) -/
  s : Vector Word 16
  err : Bool
  errcode : BitVec 4
  valid : Bool
  active : Bool
  variant : BitVec 3
  /-- the round counter (R25) -/
  t : BitVec 7
  /-- the latched command word, hidden (R35) -/
  pending : Option Word
  /-- a BLOCK is running its rounds, hidden (R35) -/
  auto : Bool
  /-- the world around the core; not the core's -/
  env : Environment
  deriving DecidableEq, Repr

/-- Why the machine stops. -/
inductive Fault where
  /-- Raised by a core step whose state breaks an invariant of 10_state R37, which no reachable state does:
  60_exceptions R207 says "stuck, no successor". Safe: the model stops where the spec gives no value. -/
  | invariantBroken
  deriving DecidableEq, Repr

/-- Why the model gives no meaning. -/
inductive Refusal where
  /-- Raised only by an arm of `exec` whose command has no meaning yet; no arm is so. Safe: nothing is claimed. -/
  | notModelled (mnemonic : String)
  deriving DecidableEq, Repr

/-- The world right after reset: nothing planned, nothing read. DESIGN CHOICE, log entries 1, 2, 3 and 13. -/
def Environment.idle : Environment where
  turns := []
  program := []
  answers := []
  draws := 0

/-- The machine right after reset: every value of the core's is stated by 10_state R36. -/
def State.reset : State where
  opa := 0
  opb := 0
  opc := 0
  result := 0
  m := Vector.replicate 16 0
  h := Vector.replicate 8 0
  v := Vector.replicate 8 0
  s := Vector.replicate 16 0
  err := false
  errcode := 0
  valid := false
  active := false
  variant := 0
  t := 0
  pending := none
  auto := false
  env := Environment.idle

end Sys2Proof.Machine
end

