-- ==== Sys2Proof/Machine/Flags.lean ====
section
/-! DEFINITION. The core has no condition codes (10_state R26): its only flags are the fields of STATUS. This file computes
the STATUS word (R30, R31, R33, R34), the error codes (60_exceptions R200), and states the invariants of R37. -/

namespace Sys2Proof.Machine

/-- `STATUS.BUSY` (10_state R33). -/
def State.busy (s : State) : Bool := s.pending.isSome || s.auto

/-- `STATUS.DWORDS` (10_state R34). -/
def State.dwords (s : State) : BitVec 4 := if s.valid then digestWords s.variant else 0

/-- The STATUS word, most significant field first (10_state R31). -/
def State.statusWord (s : State) : Word :=
  0#9 ++ s.t ++ s.dwords ++ 0#1 ++ s.variant ++ s.errcode
    ++ BitVec.ofBool s.active ++ BitVec.ofBool s.valid ++ BitVec.ofBool s.err ++ BitVec.ofBool s.busy

/-- The code of each error (60_exceptions R200). -/
def CmdError.code : CmdError → BitVec 4
  | .illegalOpcode => 1
  | .reservedBits => 2
  | .badVariant => 3
  | .noVariant => 4
  | .sequence => 5
  | .busyWrite => 6

/-- The error a decode failure records (60_exceptions R200). -/
def CmdError.ofDecode : DecodeError → CmdError
  | .illegalOpcode => .illegalOpcode
  | .reservedBits => .reservedBits

/-- N of the current variant (00_scope R16). -/
abbrev State.rounds (s : State) : Nat := roundCount s.variant

/-- The five invariants of 10_state R37, in their order there. -/
abbrev State.Inv (s : State) : Prop :=
  (s.active = true → s.valid = true)
    ∧ (s.auto = true → s.active = true ∧ s.pending = none)
    ∧ (s.valid = true → s.variant = 0 ∨ s.variant = 1 ∨ s.variant = 2)
    ∧ ((s.active = false → s.t = 0) ∧ (s.active = true → s.t.toNat ≤ s.rounds))
    ∧ (s.err = false ↔ s.errcode = 0)

end Sys2Proof.Machine
end

