-- ==== Sys2Proof/Machine/Ops.lean ====
section
/-! DEFINITION. The shared operations over the registers: recording an error, which is what this core has in place of
taking an exception (60_exceptions R201, R202, R211), clearing it, which is its return (R212); reset; and the three phases of a
block (42_compression R166, R170, R172). The core has no memory (20_memory R50). -/

namespace Sys2Proof.Machine

/-- Recording an error (60_exceptions R201, R202): the first code is kept, and nothing else changes. -/
def State.recordError (s : State) (e : CmdError) : State :=
  if s.err then s else { s with err := true, errcode := e.code }

/-- `raise CmdError(e)` (60_exceptions R201): the command ends with the error recorded and no other effect.
The machine goes on, so this is a next state. -/
def raiseError (e : CmdError) (s : State) : Host.Outcome State Fault Refusal := .next (s.recordError e)

/-- Clearing the recorded error (43_control R192, 60_exceptions R212). -/
def State.clearError (s : State) : State := { s with err := false, errcode := 0 }

/-- Every piece of the core's state at its reset value (10_state R36; 70_reset R240). The world around the core is not the core's
state and stays. Log entry 14. -/
def State.resetCore (s : State) : State := { State.reset with env := s.env }

/-- The state after a successful INIT (42_compression R169). -/
def State.selectVariant (s : State) (var : BitVec 3) : State :=
  { s with h := initialHash var, variant := var, valid := true, active := false, t := 0 }

/-- `BeginStep()` (42_compression R170). -/
def State.beginStep (s : State) : State :=
  { s with v := beginVars s.variant s.h, s := s.m, t := 0, active := true }

/-- `RoundStep()` (42_compression R166): every read sees the state before the step (00_scope R12). -/
def State.roundStep (s : State) : State :=
  { s with
    v := transition s.variant s.t.toNat s.v s.s[0]
    s := scheduleAdvance s.variant s.s
    t := s.t + 1 }

/-- `EndStep()` (42_compression R172). -/
def State.endStep (s : State) : State :=
  { s with h := addState s.variant s.h s.v, active := false, t := 0 }

end Sys2Proof.Machine
end

