-- ==== Sys2Proof/Machine/Compression.lean ====
section
/-! DEFINITION. The compression commands (42_compression R169 to R174). Their checks stand in the order of 60_exceptions R203. -/

namespace Sys2Proof.Machine

/-- INIT var (42_compression R169). Allowed in any state; it abandons a block in progress. -/
def execInit (var : BitVec 3) (s : State) : Host.Outcome State Fault Refusal :=
  if supported var then .next (s.selectVariant var) else raiseError .badVariant s

/-- BEGIN (42_compression R170). -/
def execBegin (s : State) : Host.Outcome State Fault Refusal :=
  if s.valid = false then raiseError .noVariant s
  else if s.active = true then raiseError .sequence s
  else .next s.beginStep

/-- ROUND (42_compression R171). -/
def execRound (s : State) : Host.Outcome State Fault Refusal :=
  if s.active = false then raiseError .sequence s
  else if s.t.toNat = s.rounds then raiseError .sequence s
  else .next s.roundStep

/-- END (42_compression R172). -/
def execEnd (s : State) : Host.Outcome State Fault Refusal :=
  if s.active = false ∨ s.t.toNat ≠ s.rounds then raiseError .sequence s
  else .next s.endStep

/-- BLOCK (42_compression R174), its first core step; the N rounds and the end step follow as core steps of
10_state R40, while AUTO = 1. -/
def execBlock (s : State) : Host.Outcome State Fault Refusal :=
  if s.valid = false then raiseError .noVariant s
  else if s.active = true then raiseError .sequence s
  else .next { s.beginStep with auto := true }

end Sys2Proof.Machine
end

