-- ==== Sys2Proof/Machine/Control.lean ====
section
/-! DEFINITION. The control commands (43_control R190 to R192). -/

namespace Sys2Proof.Machine

/-- NOP (43_control R190): "nothing changes". -/
def execNop (s : State) : Host.Outcome State Fault Refusal := .next s

/-- SRESET (43_control R191): "every piece of state takes its reset value". -/
def execSreset (s : State) : Host.Outcome State Fault Refusal := .next s.resetCore

/-- CLRERR (43_control R192). -/
def execClrerr (s : State) : Host.Outcome State Fault Refusal := .next s.clearError

end Sys2Proof.Machine
end

