-- ==== Sys2Proof/Machine/Operands.lean ====
section
/-! DEFINITION. The operand forms (30_encoding R83, R84): operands are implicit registers OPA, OPB, OPC, or a shift amount,
and the one destination of the ALU and the function units is RESULT (10_state R22, R23). -/

namespace Sys2Proof.Machine

/-- `RESULT <- v`, the only effect of an ALU or function-unit command (10_state R23; 40_word_alu R110; 41_function_units R131). -/
def State.setResult (s : State) (v : Word) : State := { s with result := v }

/-- A command that reads `OPA`. -/
def unary (f : Word → Word) (s : State) : State := s.setResult (f s.opa)

/-- A command that reads `OPA` and `OPB`. -/
def binary (f : Word → Word → Word) (s : State) : State := s.setResult (f s.opa s.opb)

/-- A command that reads `OPA`, `OPB` and `OPC`. -/
def ternary (f : Word → Word → Word → Word) (s : State) : State := s.setResult (f s.opa s.opb s.opc)

/-- A command that reads `OPA` and a shift amount, "neither sign-extended nor scaled" (30_encoding R83). -/
def shifted (f : Word → Nat → Word) (n : BitVec 5) (s : State) : State := s.setResult (f s.opa n.toNat)

end Sys2Proof.Machine
end

