-- ==== Sys2Proof/Machine/FunctionUnits.lean ====
section
/-! DEFINITION. The function-unit commands (41_function_units R120 to R126), each under the common law R131: it does not depend
on the variant, and writes only RESULT. -/

namespace Sys2Proof.Machine

/-- CH (41_function_units R120). -/
def execCh (s : State) : Host.Outcome State Fault Refusal := .next (ternary ch s)

/-- MAJ (41_function_units R121). -/
def execMaj (s : State) : Host.Outcome State Fault Refusal := .next (ternary maj s)

/-- PARITY (41_function_units R122). -/
def execParity (s : State) : Host.Outcome State Fault Refusal := .next (ternary parity s)

/-- BSIG0 (41_function_units R123). -/
def execBsig0 (s : State) : Host.Outcome State Fault Refusal := .next (unary bsig0 s)

/-- BSIG1 (41_function_units R124). -/
def execBsig1 (s : State) : Host.Outcome State Fault Refusal := .next (unary bsig1 s)

/-- SSIG0 (41_function_units R125). -/
def execSsig0 (s : State) : Host.Outcome State Fault Refusal := .next (unary ssig0 s)

/-- SSIG1 (41_function_units R126). -/
def execSsig1 (s : State) : Host.Outcome State Fault Refusal := .next (unary ssig1 s)

end Sys2Proof.Machine
end

