-- ==== Sys2Proof/Machine/WordAlu.lean ====
section
/-! DEFINITION. The word ALU commands (40_word_alu R100 to R107), each under the common law R110: it reads only its operands and
writes only RESULT. -/

namespace Sys2Proof.Machine

/-- ADD (40_word_alu R100). -/
def execAdd (s : State) : Host.Outcome State Fault Refusal := .next (binary add32 s)

/-- AND (40_word_alu R101). -/
def execAnd (s : State) : Host.Outcome State Fault Refusal := .next (binary (· &&& ·) s)

/-- OR (40_word_alu R102). -/
def execOr (s : State) : Host.Outcome State Fault Refusal := .next (binary (· ||| ·) s)

/-- XOR (40_word_alu R103). -/
def execXor (s : State) : Host.Outcome State Fault Refusal := .next (binary (· ^^^ ·) s)

/-- NOT (40_word_alu R104). -/
def execNot (s : State) : Host.Outcome State Fault Refusal := .next (unary (~~~ ·) s)

/-- ROTR n (40_word_alu R105). -/
def execRotr (n : BitVec 5) (s : State) : Host.Outcome State Fault Refusal := .next (shifted rotr32 n s)

/-- ROTL n (40_word_alu R106). -/
def execRotl (n : BitVec 5) (s : State) : Host.Outcome State Fault Refusal := .next (shifted rotl32 n s)

/-- SHR n (40_word_alu R107). -/
def execShr (n : BitVec 5) (s : State) : Host.Outcome State Fault Refusal := .next (shifted shr32 n s)

end Sys2Proof.Machine
end

