-- ==== Sys2Proof/Machine/Dispatch.lean ====
section
/-! DEFINITION. The dispatch of 30_encoding R90, "perform the rule of op": one arm per command. -/

namespace Sys2Proof.Machine

def exec (i : Instr) (s : State) : Host.Outcome State Fault Refusal :=
  match i with
  | .nop => Sys2Proof.Machine.execNop s
  | .add => Sys2Proof.Machine.execAdd s
  | .and => Sys2Proof.Machine.execAnd s
  | .or => Sys2Proof.Machine.execOr s
  | .xor => Sys2Proof.Machine.execXor s
  | .not => Sys2Proof.Machine.execNot s
  | .rotr n => Sys2Proof.Machine.execRotr n s
  | .rotl n => Sys2Proof.Machine.execRotl n s
  | .shr n => Sys2Proof.Machine.execShr n s
  | .ch => Sys2Proof.Machine.execCh s
  | .maj => Sys2Proof.Machine.execMaj s
  | .parity => Sys2Proof.Machine.execParity s
  | .bsig0 => Sys2Proof.Machine.execBsig0 s
  | .bsig1 => Sys2Proof.Machine.execBsig1 s
  | .ssig0 => Sys2Proof.Machine.execSsig0 s
  | .ssig1 => Sys2Proof.Machine.execSsig1 s
  | .init var => Sys2Proof.Machine.execInit var s
  | .block => Sys2Proof.Machine.execBlock s
  | .beginBlock => Sys2Proof.Machine.execBegin s
  | .round => Sys2Proof.Machine.execRound s
  | .endBlock => Sys2Proof.Machine.execEnd s
  | .sreset => Sys2Proof.Machine.execSreset s
  | .clrerr => Sys2Proof.Machine.execClrerr s

end Sys2Proof.Machine
end

