-- ==== Sys2Proof/Machine/CoreStep.lean ====
section
/-! DEFINITION. The core agent's atomic step (10_state R40) and the command execution it calls (30_encoding R90). -/

namespace Sys2Proof.Machine

/-- `PENDING <- none`, the first act of a core step that takes a command (10_state R40). -/
def State.takePending (s : State) : State := { s with pending := none }

/-- `Execute(c)` (30_encoding R90): decode, then record the error or perform the command. Total over all words (R91). -/
def execute (c : Word) (s : State) : Host.Outcome State Fault Refusal :=
  match decode c with
  | .command i => exec i s
  | .error e => raiseError (CmdError.ofDecode e) s

/-- A core step while `AUTO` = 1 and nothing is pending: a round, or the end of the block (10_state R40). -/
def State.autoStep (s : State) : State :=
  if s.t.toNat < s.rounds then s.roundStep else { s.endStep with auto := false }

/-- `CoreStep()` (10_state R40). Without `BUSY` the core has no step, so nothing happens (60_exceptions R225); from a state that breaks
an invariant of 10_state R37 the step is stuck (60_exceptions R207). -/
def coreStep (s : State) : Host.Outcome State Fault Refusal :=
  if s.busy = false then .next s
  else if s.Inv then
    match s.pending with
    | some c => execute c s.takePending
    | none => .next s.autoStep
  else .fault .invariantBroken

end Sys2Proof.Machine
end

