-- ==== Sys2Proof/Machine/Window.lean ====
section
/-! DEFINITION. The register window (20_memory R50, R51) and the host's accesses to it (R52 to R59). -/

namespace Sys2Proof.Machine

/-- The register map (20_memory R51). -/
def registerAt (o : Offset) : Register :=
  let off := o.byteOffset
  if off = 0x00 then .cmd
  else if off = 0x04 then .status
  else if off = 0x08 then .opa
  else if off = 0x0C then .opb
  else if off = 0x10 then .opc
  else if off = 0x14 then .result
  else if hm : 0x40 ≤ off ∧ off ≤ 0x7C then .m ⟨(off - 0x40) / 4, by omega⟩
  else if hh : 0x80 ≤ off ∧ off ≤ 0x9C then .h ⟨(off - 0x80) / 4, by omega⟩
  else if hv : 0xA0 ≤ off ∧ off ≤ 0xBC then .v ⟨(off - 0xA0) / 4, by omega⟩
  else if hs : 0xC0 ≤ off ∧ off ≤ 0xFC then .s ⟨(off - 0xC0) / 4, by omega⟩
  else .unmapped

/-- Where the host sees a word of the window: the platform's base and the offset (20_memory R66). No rule of the core reads it. -/
def hostAddress (o : Offset) : Nat := Config.windowBase + o.byteOffset

/-- What a read of a register returns; none where the spec says "any 32-bit value" (20_memory R53, R58). -/
def State.readWindow (s : State) (r : Register) : Option Word :=
  match r with
  | .cmd => some 0
  | .status => some s.statusWord
  | .unmapped => some 0
  | .opa => if s.busy then none else some s.opa
  | .opb => if s.busy then none else some s.opb
  | .opc => if s.busy then none else some s.opc
  | .result => if s.busy then none else some s.result
  | .m j => if s.busy then none else some s.m[j]
  | .h i => if s.busy then none else some s.h[i]
  | .v i => if s.busy then none else some s.v[i]
  | .s j => if s.busy then none else some s.s[j]

/-- `HostRead(off)` (20_memory R53): no state of the core changes; the value goes to the host's answers.
Where the value is unspecified it is a free value, drawn afresh (R58). Log entry 3. -/
def State.hostRead (s : State) (o : Offset) : State :=
  match s.readWindow (registerAt o) with
  | some x => { s with env := { s.env with answers := s.env.answers ++ [x] } }
  | none =>
    { s with env := { s.env with answers := s.env.answers ++ [Config.busyRead s.env.draws], draws := s.env.draws + 1 } }

/-- `CmdWrite(v)` (20_memory R54): while an error is recorded only the exact CLRERR and SRESET words are latched. -/
def State.cmdWrite (s : State) (c : Word) : State :=
  if s.err = true ∧ c ≠ 0x00000031 ∧ c ≠ 0x00000030 then s else { s with pending := some c }

/-- `HWrite(i, v)` (20_memory R56). -/
def State.hWrite (s : State) (i : Fin 8) (x : Word) : State :=
  if s.active = true then s.recordError .sequence else { s with h := s.h.set i x }

/-- A host write to a register while `BUSY` = 0 (20_memory R52, R54 to R56, R59). -/
def State.writeRegister (s : State) (r : Register) (x : Word) : State :=
  match r with
  | .cmd => s.cmdWrite x
  | .opa => { s with opa := x }
  | .opb => { s with opb := x }
  | .opc => { s with opc := x }
  | .m j => { s with m := s.m.set j x }
  | .h i => s.hWrite i x
  | .status => s
  | .result => s
  | .unmapped => s
  | .v _ => s
  | .s _ => s

/-- `HostWrite(off, v)` (20_memory R52); while `BUSY` = 1 it is `BusyWrite()` (R57). -/
def State.hostWrite (s : State) (o : Offset) (x : Word) : State :=
  if s.busy then s.recordError .busyWrite else s.writeRegister (registerAt o) x

end Sys2Proof.Machine
end

