-- ==== Sys2Proof/Machine/Turns.lean ====
section
/-! DEFINITION. The interleaving of the agents (00_scope R17, 20_memory R72): who moves next is the list `env.turns`, and when that is
used up the core moves while it is busy, the host otherwise. Log entries 1, 5 and 11. -/

namespace Sys2Proof.Machine

/-- The host's program without its first access. -/
def State.nextAccess (s : State) (rest : List HostOp) : State := { s with env := { s.env with program := rest } }

/-- The host's turn: its next access, one atomic event (20_memory R64). WAIT reads STATUS and stays where it is while bit 0 is 1
(30_encoding R98). A host with nothing left to do does nothing. -/
def State.hostTurn (s : State) : State :=
  match s.env.program with
  | [] => s
  | .write o x :: rest => (s.nextAccess rest).hostWrite o x
  | .read o :: rest => (s.nextAccess rest).hostRead o
  | .wait :: rest => if s.statusWord.getLsbD 0 then s else s.nextAccess rest

/-- The state without the first entry of its list of turns. -/
def State.nextTurn (s : State) (rest : List Turn) : State := { s with env := { s.env with turns := rest } }

/-- One event of one agent. -/
def takeTurn (s : State) : Host.Outcome State Fault Refusal :=
  match s.env.turns with
  | .core :: rest => coreStep (s.nextTurn rest)
  | .host :: rest => .next (s.nextTurn rest).hostTurn
  | .reset :: rest => .next (s.nextTurn rest).resetCore
  | [] => if s.busy then coreStep s else .next s.hostTurn

/-- The state with a command word latched and the core's turn next: the core "fetches" no instruction, a host write latches it
(10_state R24, 20_memory R54). `AUTO` is 0 whenever a word is latched (10_state R37). Log entry 2. -/
def State.placeCommand (s : State) (c : Word) : State :=
  { s with pending := some c, auto := false, env := { s.env with turns := .core :: s.env.turns } }

end Sys2Proof.Machine
end

