-- ==== Sys2Proof/Machine/Step.lean ====
section
/-! DEFINITION. The machine's step, and where a command is put for it to run next. -/

namespace Sys2Proof.Machine

/-- One step of the whole system: one event of the agent whose turn it is (00_scope R17). -/
def step (s : State) : Host.Outcome State Fault Refusal := takeTurn s

/-- The state in which the very next step runs the command in the low `nbits` bits of `w`. Log entries 2 and 12. -/
def State.withFetchWord (s : State) (nbits w : Nat) : State := s.placeCommand (BitVec.ofNat 32 (w % 2 ^ nbits))

end Sys2Proof.Machine
end

