-- ==== Sys2Proof/Machine/HostProcedure.lean ====
section
/-! DEFINITION. The host's procedure for a digest (20_memory R60, R61, R65, R68 to R71): no behaviour of the core, and given so that a
digest is defined end to end. Log entry 16. -/

namespace Sys2Proof.Machine

/-- A word of a block from its four bytes, big-endian (20_memory R60). -/
def packWord (b0 b1 b2 b3 : Byte) : Word := b0 ++ b1 ++ b2 ++ b3

/-- The bytes of a word, most significant first (20_memory R61). -/
def be32 (w : Word) : List Byte :=
  [w.extractLsb' 24 8, w.extractLsb' 16 8, w.extractLsb' 8 8, w.extractLsb' 0 8]

/-- `be64(x)`: the 8 bytes of `x`, most significant first (20_memory R68). -/
def be64 (x : Nat) : List Byte :=
  [56, 48, 40, 32, 24, 16, 8, 0].map fun k => (BitVec.ofNat 64 x).extractLsb' k 8

/-- The number of zero bytes of the padding, `(55 - len) mod 64` (20_memory R68). -/
def padZeros (len : Nat) : Nat := ((55 - (len : Int)) % 64).toNat

/-- `Pad(msg)` (20_memory R68). -/
def pad (msg : List Byte) : List Byte :=
  msg ++ [0x80] ++ List.replicate (padZeros msg.length) 0x00 ++ be64 (8 * msg.length)

/-- The block whose 64 bytes begin the list (20_memory R60, R69). -/
def packBlock (bytes : List Byte) : Vector Word 16 :=
  Vector.ofFn fun j =>
    packWord (bytes.getD (4 * j) 0) (bytes.getD (4 * j + 1) 0) (bytes.getD (4 * j + 2) 0) (bytes.getD (4 * j + 3) 0)

/-- The blocks of a padded message, in order (20_memory R69). -/
def splitBlocks (padded : List Byte) : List (Vector Word 16) :=
  (List.range (padded.length / 64)).map fun i => packBlock (padded.drop (64 * i))

/-- The digest of a final hash state: the first DWORDS words, big-endian (20_memory R61, R65). -/
def digestBytes (var : BitVec 3) (h : Vector Word 8) : List Byte :=
  (h.toList.take (digestWords var).toNat).flatMap be32

/-- The messages the procedure is defined for: bit length below 2^64 (20_memory R71). -/
def inMessageDomain (msg : List Byte) : Bool := decide (8 * msg.length < 2 ^ 64)

/-- The digest of a message as a pure function (20_memory R70, with `Compress` of 42_compression R165): none outside the domain of
R71 or for an unsupported variant. -/
def digest (var : BitVec 3) (msg : List Byte) : Option (List Byte) :=
  if supported var && inMessageDomain msg then
    some (digestBytes var ((splitBlocks (pad msg)).foldl (compress var) (initialHash var)))
  else none

/-- `CMD <command>` as an access (30_encoding R97). -/
def cmdOp (i : Instr) : HostOp := .write (Offset.ofByteOffset 0x00) (encode i)

/-- The accesses that write a block into `M` (20_memory R70). -/
def loadBlock (b : Vector Word 16) : List HostOp :=
  (List.range 16).map fun j => .write (Offset.ofByteOffset (0x40 + 4 * j)) (b.toList.getD j 0)

/-- The accesses of the complete host procedure `Digest(var, msg)` (20_memory R70), and after them the read of STATUS by which the host learns
whether the result is a digest (60_exceptions R206). None for a message outside the domain of R71 or an unsupported variant. Log entry 16. -/
def digestProgram (var : BitVec 3) (msg : List Byte) : Option (List HostOp) :=
  if supported var && inMessageDomain msg then
    some ([cmdOp (.init var), .wait]
      ++ (splitBlocks (pad msg)).flatMap (fun b => loadBlock b ++ [cmdOp .block, .wait])
      ++ (List.range (digestWords var).toNat).map (fun i => .read (Offset.ofByteOffset (0x80 + 4 * i)))
      ++ [.read (Offset.ofByteOffset 0x04)])
  else none

/-- `return be32(h_0) ++ ... ++ be32(h_{DWORDS-1})` from what the reads of `digestProgram` returned, oldest first: none where STATUS, read last,
has ERR = 1, since "the result is not a digest and the host must discard it" (20_memory R70). -/
def digestFromAnswers (answers : List Word) : Option (List Byte) :=
  match answers.getLast? with
  | none => none
  | some status => if status.getLsbD 1 then none else some (answers.dropLast.flatMap be32)

end Sys2Proof.Machine
end

