-- ==== Sys2Proof/Safety.lean ====
section
/-! DEFINITION. What counts as a safe state and a safe run of the core, in the terms claims use (10_state R37, 60_exceptions R207). -/

namespace Sys2Proof.Machine

/-- A state from which no core step is stuck: the five invariants of 10_state R37 hold. -/
abbrev State.Safe (s : State) : Prop := s.Inv

/-- The codes the core records: "7..15 reserved, never recorded" (60_exceptions R200). -/
abbrev State.CodeRecordable (s : State) : Prop := s.errcode.toNat ≤ 6

/-- Neither fault nor refusal: the machine goes on. -/
def goesOn (o : Host.Outcome State Fault Refusal) : Prop := ∃ s', o = .next s'

/-- What follows an outcome: more steps after a next state, the same stop after a stop. -/
def andThen (o : Host.Outcome State Fault Refusal) (f : State → Host.Outcome State Fault Refusal) :
    Host.Outcome State Fault Refusal :=
  match o with
  | .next s => f s
  | .fault r => .fault r
  | .refused r => .refused r

/-- `n` steps of the whole system, stopping at the first fault or refusal. -/
def runSteps : Nat → State → Host.Outcome State Fault Refusal
  | 0, s => .next s
  | n + 1, s => andThen (step s) (runSteps n)

/-- `n` core steps with no other agent's event between them (10_state R40). -/
def coreSteps : Nat → State → Host.Outcome State Fault Refusal
  | 0, s => .next s
  | n + 1, s => andThen (coreStep s) (coreSteps n)

/-- Commands performed one after the other, each completed before the next (42_compression R175). -/
def execAll : List Instr → State → Host.Outcome State Fault Refusal
  | [], s => .next s
  | i :: is, s => andThen (exec i s) (execAll is)

/-- A run of `n` steps that meets neither a fault nor a refusal. -/
def SafeRun (n : Nat) (s : State) : Prop := goesOn (runSteps n s)

end Sys2Proof.Machine
end

