-- ==== Sys2Proof/Certificates/Slice0/Obligations.lean ====
section
/-! DEFINITION. The statements for the provers. They say what the rules of spec/ say in numbers and in the library's own word operations,
not through the model's helpers, wherever the rule gives a value. -/

namespace Sys2Proof.Claims

open Sys2Proof.Machine

/-- The effect of recording an error and of nothing else (60_exceptions R201, R202): the first code is kept. -/
def recorded (code : BitVec 4) (s : State) : State :=
  { s with err := true, errcode := if s.err = true then s.errcode else code }

/-- The state after the core has taken the latched word (10_state R40). -/
def taken (s : State) : State := { s with pending := none }

/-- A latched word of OPCODE `op` is the command `cmd` where no bit outside `mask` is 1, and records RESERVED_BITS (code 2) and nothing else
where one is (30_encoding R82, R85, R87, R90): the "Encoding" and "Errors" lines of a command's rule. -/
def LatchedWord (op : BitVec 8) (mask : Word) (cmd : Word → Instr) : Prop :=
  ∀ (s : State) (c : Word), s.Inv → s.pending = some c → c.extractLsb' 0 8 = op →
    (c &&& ~~~ mask = 0 → coreStep s = exec (cmd c) (taken s))
      ∧ (c &&& ~~~ mask ≠ 0 → coreStep s = .next (recorded 2 (taken s)))

/-- The word `cmd` of OPCODE `op` is latched also while an error is recorded, another word of that OPCODE is then ignored, and while the core is busy
the write is refused (20_memory R54, R57; 43_control R191, R192). -/
def AcceptedInError (op : BitVec 8) (cmd : Word) : Prop :=
  ∀ s : State,
    (s.busy = false → s.hostWrite 0 cmd = { s with pending := some cmd })
      ∧ (s.busy = true → s.hostWrite 0 cmd = recorded 6 s)
      ∧ ∀ c : Word, s.busy = false → s.err = true → c.extractLsb' 0 8 = op → c ≠ cmd → s.hostWrite 0 c = s

/-- The unassigned opcodes, as 30_encoding R86 lists them. -/
abbrev Unassigned (op : BitVec 8) : Prop :=
  (0x09 ≤ op.toNat ∧ op.toNat ≤ 0x0F) ∨ (0x17 ≤ op.toNat ∧ op.toNat ≤ 0x1F)
    ∨ (0x25 ≤ op.toNat ∧ op.toNat ≤ 0x2F) ∨ (0x32 ≤ op.toNat ∧ op.toNat ≤ 0xFF)

/-- The allowed mask of an assigned opcode's format (30_encoding R82, R85). -/
def maskOf (op : BitVec 8) : Word :=
  if op = 0x06 ∨ op = 0x07 ∨ op = 0x08 then 0x00001FFF else if op = 0x20 then 0x000700FF else 0x000000FF

/-- The command word `c` meets the condition of BAD_VARIANT (60_exceptions R200). -/
abbrev BadVariant (c : Word) : Prop := c.extractLsb' 0 8 = 0x20#8 ∧ 3 ≤ (c.extractLsb' 16 3).toNat

/-- The command word `c` meets the condition of NO_VARIANT in `s` (60_exceptions R200). -/
abbrev NoVariant (c : Word) (s : State) : Prop :=
  (c.extractLsb' 0 8 = 0x21#8 ∨ c.extractLsb' 0 8 = 0x22#8) ∧ s.valid = false

/-- N (00_scope R8, R16). -/
def roundsOf (var : BitVec 3) : Nat := if var = 0 then 80 else 64

/-- The command word `c` meets a condition of SEQUENCE in `s` (60_exceptions R200). -/
abbrev OutOfSequence (c : Word) (s : State) : Prop :=
  ((c.extractLsb' 0 8 = 0x21#8 ∨ c.extractLsb' 0 8 = 0x22#8) ∧ s.active = true)
    ∨ (c.extractLsb' 0 8 = 0x23#8 ∧ (s.active = false ∨ s.t.toNat = roundsOf s.variant))
    ∨ (c.extractLsb' 0 8 = 0x24#8 ∧ (s.active = false ∨ s.t.toNat ≠ roundsOf s.variant))

/-- Ch, in the equivalent form of 41_function_units R130. -/
def chOr (x y z : Word) : Word := (x &&& y) ||| (~~~ x &&& z)

/-- Maj, in the equivalent form of 41_function_units R130. -/
def majOr (x y z : Word) : Word := (x &&& y) ||| (x &&& z) ||| (y &&& z)

/-- The SHA-1 round of 42_compression R161 with the functions and constants of R144, over the library's rotates. -/
def sha1Round (t : Nat) (v : Vector Word 8) (w : Word) : Vector Word 8 :=
  let f := if t < 20 then chOr v[1] v[2] v[3]
    else if 40 ≤ t ∧ t < 60 then majOr v[1] v[2] v[3] else v[1] ^^^ v[2] ^^^ v[3]
  let k : Word := if t < 20 then 0x5A827999 else if t < 40 then 0x6ED9EBA1 else if t < 60 then 0x8F1BBCDC else 0xCA62C1D6
  #v[v[0].rotateLeft 5 + f + v[4] + k + w, v[0], v[1].rotateLeft 30, v[2], v[3], v[5], v[6], v[7]]

/-- The SHA-224 and SHA-256 round of 42_compression R162, over the library's rotates; `k256` is the model's table of R145. -/
def sha2Round (t : Nat) (v : Vector Word 8) (w : Word) : Vector Word 8 :=
  let t1 := v[7] + (v[4].rotateRight 6 ^^^ v[4].rotateRight 11 ^^^ v[4].rotateRight 25) + chOr v[4] v[5] v[6] + k256 t + w
  let t2 := (v[0].rotateRight 2 ^^^ v[0].rotateRight 13 ^^^ v[0].rotateRight 22) + majOr v[0] v[1] v[2]
  #v[t1 + t2, v[0], v[1], v[2], v[3] + t1, v[4], v[5], v[6]]

/-- σ0 over the library's rotates (41_function_units R130). -/
def sigma0 (x : Word) : Word := x.rotateRight 7 ^^^ x.rotateRight 18 ^^^ x >>> 3

/-- σ1 over the library's rotates (41_function_units R130). -/
def sigma1 (x : Word) : Word := x.rotateRight 17 ^^^ x.rotateRight 19 ^^^ x >>> 10

/-- The schedule window after `ScheduleAdvance` (42_compression R154). -/
def windowNext (var : BitVec 3) (s : Vector Word 16) : Vector Word 16 :=
  let new := if var = 0 then (s[13] ^^^ s[8] ^^^ s[2] ^^^ s[0]).rotateLeft 1
    else sigma1 s[14] + s[9] + sigma0 s[1] + s[0]
  #v[s[1], s[2], s[3], s[4], s[5], s[6], s[7], s[8], s[9], s[10], s[11], s[12], s[13], s[14], s[15], new]

/-- The state BEGIN leaves (42_compression R170). -/
def begun (s : State) : State :=
  { s with
    v := if s.variant = 0 then #v[s.h[0], s.h[1], s.h[2], s.h[3], s.h[4], 0, 0, 0] else s.h
    s := s.m, t := 0, active := true }

/-- A host read of `o` that returns `x` and changes nothing else (20_memory R53). -/
def ReadsAs (s : State) (o : Offset) (x : Word) : Prop :=
  s.hostRead o = { s with env := { s.env with answers := s.env.answers ++ [x] } }

/-- The offsets whose value is unspecified while busy: all but CMD, STATUS and the unmapped ones (20_memory R58). -/
abbrev Unreliable (o : Offset) : Prop :=
  4 * o.toNat ≠ 0x00 ∧ 4 * o.toNat ≠ 0x04 ∧ ¬ (0x18 ≤ 4 * o.toNat ∧ 4 * o.toNat ≤ 0x3C)

/-- Two states that agree on everything but operands, results and the words of `M`, `H`, `V`, `S`. -/
abbrev SameControl (s r : State) : Prop :=
  s.err = r.err ∧ s.errcode = r.errcode ∧ s.valid = r.valid ∧ s.active = r.active ∧ s.variant = r.variant
    ∧ s.t = r.t ∧ s.pending = r.pending ∧ s.auto = r.auto

/-- What holds of a block in progress whose words, at BEGIN or BLOCK, were `b` (42_compression R150, R153, R165): the window holds `W[T]` to `W[T+15]` of
`b`, and the working variables are those of the first `T` rounds from the hash state. -/
def BlockInProgress (b : Vector Word 16) (s : State) : Prop :=
  s.active = true →
    (∀ j : Fin 16, s.s[j] = scheduleWord s.variant b (s.t.toNat + j))
      ∧ s.v = roundsFrom s.variant (scheduleList s.variant b s.t.toNat) (beginVars s.variant s.h) s.t.toNat

/-- The commands that read `OPA` only: NOT, the rotates, the shift, and the one-input function units. -/
def unaryCommands (n : BitVec 5) : List Instr := [.not, .rotr n, .rotl n, .shr n, .bsig0, .bsig1, .ssig0, .ssig1]

/-- The commands that read `OPA` and `OPB`. -/
def binaryCommands : List Instr := [.add, .and, .or, .xor]

/-- The commands that read `OPA`, `OPB` and `OPC`. -/
def ternaryCommands : List Instr := [.ch, .maj, .parity]

/-- The first 64 primes. -/
def primes : List Nat :=
  [2, 3, 5, 7, 11, 13, 17, 19, 23, 29, 31, 37, 41, 43, 47, 53, 59, 61, 67, 71, 73, 79, 83, 89, 97, 101, 103, 107, 109, 113, 127, 131]
    ++ [137, 139, 149, 151, 157, 163, 167, 173, 179, 181, 191, 193, 197, 199, 211, 223, 227, 229, 233, 239, 241, 251, 257, 263, 269, 271, 277, 281, 283, 293, 307, 311]

/-- `k` is the 32 bits of the cube root of `p` that follow its binary point. -/
def IsCubeRootFraction (p k : Nat) : Prop := ∃ n, n ≤ 6 ∧ (n * 2 ^ 32 + k) ^ 3 ≤ p * 2 ^ 96 ∧ p * 2 ^ 96 < (n * 2 ^ 32 + k + 1) ^ 3

/-- `k` is the first 32 bits of the square root of `p` that follow its binary point. -/
def IsSquareRootFraction (p k : Nat) : Prop := ∃ n, n ≤ 7 ∧ (n * 2 ^ 32 + k) ^ 2 ≤ p * 2 ^ 64 ∧ p * 2 ^ 64 < (n * 2 ^ 32 + k + 1) ^ 2

/-- `k` is the second 32 bits of the square root of `p` that follow its binary point: the floor of the root times 2^64, less
a multiple `n` of 2^32. -/
def IsSecondSquareRootFraction (p k : Nat) : Prop :=
  ∃ r, r ^ 2 ≤ p * 2 ^ 128 ∧ p * 2 ^ 128 < (r + 1) ^ 2 ∧ r % 2 ^ 32 = k

end Sys2Proof.Claims

open Sys2Proof Sys2Proof.Machine Sys2Proof.Claims

-- ## Encoding

/-- 30_encoding R85, last but two columns, and the words of 95_test_vectors section 2.1: each row's word is its command. -/
def Obligations.OpcodeMapWordsDecode : Prop :=
  [0x00000000, 0x00000001, 0x00000002, 0x00000003, 0x00000004, 0x00000005, 0x00000706, 0x00001F07, 0x00000308, 0x00000010, 0x00000011, 0x00000012].map decode
      = [Instr.nop, .add, .and, .or, .xor, .not, .rotr 7, .rotl 31, .shr 3, .ch, .maj, .parity].map Decoded.command
    ∧ [0x00000013, 0x00000014, 0x00000015, 0x00000016, 0x00020020, 0x00000021, 0x00000022, 0x00000023, 0x00000024, 0x00000030, 0x00000031].map decode
      = [Instr.bsig0, .bsig1, .ssig0, .ssig1, .init 2, .block, .beginBlock, .round, .endBlock, .sreset, .clrerr].map Decoded.command

/-- 30_encoding R85, R90: each command has exactly one word, and the decoder reads it back, every field at every value. -/
def Obligations.DecodeReadsExactlyTheEncodedWord : Prop :=
  ∀ (c : Word) (i : Instr), decode c = .command i ↔ encode i = c

/-- 30_encoding R83: the decoded immediates are the fields c[12:8] and c[18:16], unsigned and unscaled, and the decoder refuses none of their values. -/
def Obligations.ImmediatesAreTheirFields : Prop :=
  ∀ (n : BitVec 5) (var : BitVec 3),
    decode (BitVec.ofNat 32 (0x06 + n.toNat * 2 ^ 8)) = .command (.rotr n)
      ∧ decode (BitVec.ofNat 32 (0x07 + n.toNat * 2 ^ 8)) = .command (.rotl n)
      ∧ decode (BitVec.ofNat 32 (0x08 + n.toNat * 2 ^ 8)) = .command (.shr n)
      ∧ decode (BitVec.ofNat 32 (0x20 + var.toNat * 2 ^ 16)) = .command (.init var)

/-- 30_encoding R86. -/
def Obligations.IllegalOpcodeRecordsCodeOne : Prop :=
  ∀ (s : State) (c : Word), s.Inv → s.pending = some c → Unassigned (c.extractLsb' 0 8) →
    coreStep s = .next (recorded 1 (taken s))

/-- 30_encoding R87. -/
def Obligations.ReservedBitsRecordCodeTwo : Prop :=
  ∀ (s : State) (c : Word), s.Inv → s.pending = some c → ¬ Unassigned (c.extractLsb' 0 8) →
    c &&& ~~~ maskOf (c.extractLsb' 0 8) ≠ 0 → coreStep s = .next (recorded 2 (taken s))

/-- 30_encoding R91: every word is latched, and has exactly one outcome. -/
def Obligations.EveryWordIsLatchedAndDecodes : Prop :=
  ∀ (s : State) (c : Word), s.pending = none → s.auto = false → s.err = false →
    s.hostWrite 0 c = { s with pending := some c }
      ∧ ((∃ i, decode c = .command i) ∨ decode c = .error .illegalOpcode ∨ decode c = .error .reservedBits)
      ∧ (s.Inv → ∃ s', coreStep { s with pending := some c } = .next s')

/-- 60_exceptions R203: exactly one error, the first in the order of R203; with none of them, none is recorded. -/
def Obligations.FirstErrorInOrderIsRecorded : Prop :=
  ∀ (s : State) (c : Word), s.Inv → s.pending = some c →
    (Unassigned (c.extractLsb' 0 8) → coreStep s = .next (recorded 1 (taken s)))
      ∧ (¬ Unassigned (c.extractLsb' 0 8) → c &&& ~~~ maskOf (c.extractLsb' 0 8) ≠ 0 → coreStep s = .next (recorded 2 (taken s)))
      ∧ (¬ Unassigned (c.extractLsb' 0 8) → c &&& ~~~ maskOf (c.extractLsb' 0 8) = 0 →
          (BadVariant c → coreStep s = .next (recorded 3 (taken s)))
            ∧ (NoVariant c s → coreStep s = .next (recorded 4 (taken s)))
            ∧ (¬ NoVariant c s → OutOfSequence c s → coreStep s = .next (recorded 5 (taken s)))
            ∧ (¬ BadVariant c → ¬ NoVariant c s → ¬ OutOfSequence c s →
                ∃ s', coreStep s = .next s' ∧ (s.err = false → s'.err = false)))

-- ## The step

/-- 10_state R40, 30_encoding R90: a step runs the latched command, from every state whose next mover is the core; what the step adds
around `exec` is that PENDING becomes none and the list of turns loses its first entry. `withFetchWord` makes it so. -/
def Obligations.StepRunsTheLatchedCommand : Prop :=
  (∀ (s : State) (c : Word) (i : Instr), s.Inv → s.pending = some c → decode c = .command i →
      (s.env.turns = [] → step s = exec i (taken s))
        ∧ ∀ rest, s.env.turns = .core :: rest →
            step s = exec i { taken s with env := { s.env with turns := rest } })
    ∧ ∀ (s : State) (i : Instr), s.Inv →
        step (s.withFetchWord 32 (encode i).toNat) = exec i { s with pending := none, auto := false }

-- ## Word ALU

/-- 40_word_alu R100. -/
def Obligations.AddWritesTheSumModuloTwoToThe32 : Prop :=
  (∀ s : State, ∃ r, exec .add s = .next { s with result := r } ∧ r.toNat = (s.opa.toNat + s.opb.toNat) % 2 ^ 32)
    ∧ LatchedWord 0x01 0x000000FF (fun _ => .add)

/-- 40_word_alu R101 to R104, bit by bit. -/
def Obligations.BitwiseCommandsWorkBitByBit : Prop :=
  (∀ s : State,
    (∃ r, exec .and s = .next { s with result := r } ∧ ∀ i < 32, r.getLsbD i = (s.opa.getLsbD i && s.opb.getLsbD i))
      ∧ (∃ r, exec .or s = .next { s with result := r } ∧ ∀ i < 32, r.getLsbD i = (s.opa.getLsbD i || s.opb.getLsbD i))
      ∧ (∃ r, exec .xor s = .next { s with result := r } ∧ ∀ i < 32, r.getLsbD i = (s.opa.getLsbD i != s.opb.getLsbD i))
      ∧ (∃ r, exec .not s = .next { s with result := r } ∧ ∀ i < 32, r.getLsbD i = !s.opa.getLsbD i))
    ∧ LatchedWord 0x02 0x000000FF (fun _ => .and) ∧ LatchedWord 0x03 0x000000FF (fun _ => .or)
    ∧ LatchedWord 0x04 0x000000FF (fun _ => .xor) ∧ LatchedWord 0x05 0x000000FF (fun _ => .not)

/-- 40_word_alu R105 and R106: `RESULT[i] <- OPA[(i + n) mod 32]` and `RESULT[i] <- OPA[(i - n) mod 32]`, for every n. -/
def Obligations.RotatesMoveEveryBit : Prop :=
  (∀ (s : State) (n : BitVec 5),
    (∃ r, exec (.rotr n) s = .next { s with result := r } ∧ ∀ i < 32, r.getLsbD i = s.opa.getLsbD ((i + n.toNat) % 32))
      ∧ (∃ r, exec (.rotl n) s = .next { s with result := r } ∧ ∀ i < 32, r.getLsbD i = s.opa.getLsbD ((i + 32 - n.toNat) % 32)))
    ∧ LatchedWord 0x06 0x00001FFF (fun c => .rotr (c.extractLsb' 8 5))
    ∧ LatchedWord 0x07 0x00001FFF (fun c => .rotl (c.extractLsb' 8 5))

/-- 40_word_alu R107: `floor(OPA / 2^n)`, zero-filled from the left, for every n. -/
def Obligations.ShiftRightFillsWithZeros : Prop :=
  (∀ (s : State) (n : BitVec 5), ∃ r, exec (.shr n) s = .next { s with result := r } ∧ r.toNat = s.opa.toNat / 2 ^ n.toNat
      ∧ (∀ i, i < 32 - n.toNat → r.getLsbD i = s.opa.getLsbD (i + n.toNat))
      ∧ (∀ i, 32 - n.toNat ≤ i → i < 32 → r.getLsbD i = false))
    ∧ LatchedWord 0x08 0x00001FFF (fun c => .shr (c.extractLsb' 8 5))

/-- 40_word_alu R114: the unit laws, of the operators the commands ROTR, ROTL, SHR and ADD use. -/
def Obligations.UnitLawsOfRotatesShiftsAndAddition : Prop :=
  (∀ (s : State) (n : BitVec 5), ∃ r, exec (.rotr n) s = .next { s with result := r }
      ∧ exec (.rotl n) { s with opa := r } = .next { s with opa := r, result := s.opa }
      ∧ exec (.rotl (0 - n)) s = .next { s with result := r })
    ∧ (∀ s : State, s.opa = 0xFFFFFFFF → s.opb = 0x00000001 → exec .add s = .next { s with result := 0 })
    ∧ (∀ s : State, exec (.rotr 0) s = .next { s with result := s.opa } ∧ exec (.rotl 0) s = .next { s with result := s.opa }
        ∧ exec (.shr 0) s = .next { s with result := s.opa })

-- ## Function units

/-- 41_function_units R120 to R122, bit by bit: choose, majority, parity. -/
def Obligations.ThreeInputUnitsWorkBitByBit : Prop :=
  (∀ s : State,
    (∃ r, exec .ch s = .next { s with result := r }
        ∧ ∀ i < 32, r.getLsbD i = if s.opa.getLsbD i then s.opb.getLsbD i else s.opc.getLsbD i)
      ∧ (∃ r, exec .maj s = .next { s with result := r }
        ∧ ∀ i < 32, r.getLsbD i = decide (2 ≤ (s.opa.getLsbD i).toNat + (s.opb.getLsbD i).toNat + (s.opc.getLsbD i).toNat))
      ∧ (∃ r, exec .parity s = .next { s with result := r }
        ∧ ∀ i < 32, r.getLsbD i = decide (((s.opa.getLsbD i).toNat + (s.opb.getLsbD i).toNat + (s.opc.getLsbD i).toNat) % 2 = 1)))
    ∧ LatchedWord 0x10 0x000000FF (fun _ => .ch) ∧ LatchedWord 0x11 0x000000FF (fun _ => .maj)
    ∧ LatchedWord 0x12 0x000000FF (fun _ => .parity)

/-- 41_function_units R123 and R124: bit i of Σ0 is the exclusive or of bits i+2, i+13, i+22 of OPA, modulo 32; of Σ1, bits i+6, i+11, i+25. -/
def Obligations.BigSigmaUnitsXorThreeRotates : Prop :=
  (∀ s : State,
    (∃ r, exec .bsig0 s = .next { s with result := r }
        ∧ ∀ i < 32, r.getLsbD i = ((s.opa.getLsbD ((i + 2) % 32) ^^ s.opa.getLsbD ((i + 13) % 32)) ^^ s.opa.getLsbD ((i + 22) % 32)))
      ∧ (∃ r, exec .bsig1 s = .next { s with result := r }
        ∧ ∀ i < 32, r.getLsbD i = ((s.opa.getLsbD ((i + 6) % 32) ^^ s.opa.getLsbD ((i + 11) % 32)) ^^ s.opa.getLsbD ((i + 25) % 32))))
    ∧ LatchedWord 0x13 0x000000FF (fun _ => .bsig0) ∧ LatchedWord 0x14 0x000000FF (fun _ => .bsig1)

/-- 41_function_units R125 and R126: two rotates and one shift; the shift's vacated bits are zero. -/
def Obligations.SmallSigmaUnitsXorTwoRotatesAndAShift : Prop :=
  (∀ s : State,
    (∃ r, exec .ssig0 s = .next { s with result := r }
        ∧ ∀ i < 32, r.getLsbD i = ((s.opa.getLsbD ((i + 7) % 32) ^^ s.opa.getLsbD ((i + 18) % 32)) ^^ (decide (i < 29) && s.opa.getLsbD (i + 3))))
      ∧ (∃ r, exec .ssig1 s = .next { s with result := r }
        ∧ ∀ i < 32, r.getLsbD i = ((s.opa.getLsbD ((i + 17) % 32) ^^ s.opa.getLsbD ((i + 19) % 32)) ^^ (decide (i < 22) && s.opa.getLsbD (i + 10)))))
    ∧ LatchedWord 0x15 0x000000FF (fun _ => .ssig0) ∧ LatchedWord 0x16 0x000000FF (fun _ => .ssig1)

/-- 40_word_alu R110 and 41_function_units R131: such a command writes only RESULT, in any state, and what it writes depends only on the
operand registers it reads (and its SHAMT field), not on the variant, the block in progress or any other register. -/
def Obligations.AluAndUnitsReadOnlyTheirOperands : Prop :=
  ∀ (s r : State) (n : BitVec 5) (i : Instr), s.opa = r.opa →
    (i ∈ unaryCommands n ∨ (i ∈ binaryCommands ∧ s.opb = r.opb) ∨ (i ∈ ternaryCommands ∧ s.opb = r.opb ∧ s.opc = r.opc)) →
    ∃ x, exec i s = .next { s with result := x } ∧ exec i r = .next { r with result := x }

/-- The frame of the ALU and function-unit commands through the host's window: every offset but RESULT's reads as before. Where a read while busy is
unspecified (20_memory R58) nothing is said. -/
def Obligations.AluAndUnitsLeaveEveryOtherWindowWord : Prop :=
  ∀ (s s' : State) (n : BitVec 5) (i : Instr) (o : Offset), i ∈ unaryCommands n ++ binaryCommands ++ ternaryCommands →
    4 * o.toNat ≠ 0x14 → s.busy = false ∨ ¬ Unreliable o → exec i s = .next s' → (s'.hostRead o).env = (s.hostRead o).env

-- ## Constants

/-- 42_compression R142, R143, R145: the SHA-256 initial words and round constants, and the SHA-224 initial words, are the bits of roots
of primes the rules say; each such word is determined by it. -/
def Obligations.ConstantsAreTheStatedRootsOfPrimes : Prop :=
  (∀ i : Fin 8, IsSquareRootFraction (primes.getD i 0) (initialHash 2)[i].toNat)
    ∧ (∀ i : Fin 8, IsSecondSquareRootFraction (primes.getD (8 + i) 0) (initialHash 1)[i].toNat)
    ∧ (∀ t : Fin 64, IsCubeRootFraction (primes.getD t 0) (k256 t).toNat)

/-- 42_compression R144. -/
def Obligations.Sha1FunctionAndConstantFollowTheRound : Prop :=
  ∀ (t : Nat) (b c d : Word),
    (t < 20 → sha1Function t b c d = chOr b c d ∧ k1 t = 0x5A827999)
      ∧ (20 ≤ t → t < 40 → sha1Function t b c d = b ^^^ c ^^^ d ∧ k1 t = 0x6ED9EBA1)
      ∧ (40 ≤ t → t < 60 → sha1Function t b c d = majOr b c d ∧ k1 t = 0x8F1BBCDC)
      ∧ (60 ≤ t → t < 80 → sha1Function t b c d = b ^^^ c ^^^ d ∧ k1 t = 0xCA62C1D6)

-- ## Compression

/-- 42_compression R169 with R141 to R143: INIT in every state, for every code. -/
def Obligations.InitSelectsTheVariantAndLoadsItsHash : Prop :=
  (∀ s : State,
    exec (.init 0) s = .next { s with
        h := #v[0x67452301, 0xEFCDAB89, 0x98BADCFE, 0x10325476, 0xC3D2E1F0, 0, 0, 0]
        variant := 0, valid := true, active := false, t := 0 }
      ∧ exec (.init 1) s = .next { s with
        h := #v[0xC1059ED8, 0x367CD507, 0x3070DD17, 0xF70E5939, 0xFFC00B31, 0x68581511, 0x64F98FA7, 0xBEFA4FA4]
        variant := 1, valid := true, active := false, t := 0 }
      ∧ exec (.init 2) s = .next { s with
        h := #v[0x6A09E667, 0xBB67AE85, 0x3C6EF372, 0xA54FF53A, 0x510E527F, 0x9B05688C, 0x1F83D9AB, 0x5BE0CD19]
        variant := 2, valid := true, active := false, t := 0 }
      ∧ ∀ var : BitVec 3, 3 ≤ var.toNat → exec (.init var) s = .next (recorded 3 s))
    ∧ LatchedWord 0x20 0x000700FF (fun c => .init (c.extractLsb' 16 3))

/-- 42_compression R170. -/
def Obligations.BeginLoadsTheWorkingVariablesAndTheWindow : Prop :=
  (∀ s : State,
    (s.valid = false → exec .beginBlock s = .next (recorded 4 s))
      ∧ (s.valid = true → s.active = true → exec .beginBlock s = .next (recorded 5 s))
      ∧ (s.valid = true → s.active = false → exec .beginBlock s = .next (begun s)))
    ∧ LatchedWord 0x22 0x000000FF (fun _ => .beginBlock)

/-- 42_compression R171, with R154, R161, R162 and R166: one round, for every variant and every round. -/
def Obligations.RoundAdvancesVariablesWindowAndCounter : Prop :=
  (∀ s : State,
    (s.active = false → exec .round s = .next (recorded 5 s))
      ∧ (s.active = true → s.t.toNat = roundsOf s.variant → exec .round s = .next (recorded 5 s))
      ∧ (s.active = true → s.t.toNat < roundsOf s.variant →
          exec .round s = .next { s with
            v := if s.variant = 0 then sha1Round s.t.toNat s.v s.s[0] else sha2Round s.t.toNat s.v s.s[0]
            s := windowNext s.variant s.s
            t := BitVec.ofNat 7 (s.t.toNat + 1) }))
    ∧ LatchedWord 0x23 0x000000FF (fun _ => .round)

/-- 42_compression R172 with R164. -/
def Obligations.EndAddsTheWorkingVariablesIntoTheHash : Prop :=
  (∀ s : State,
    (s.active = false ∨ s.t.toNat ≠ roundsOf s.variant → exec .endBlock s = .next (recorded 5 s))
      ∧ (s.active = true → s.t.toNat = roundsOf s.variant →
          ∃ h' : Vector Word 8, exec .endBlock s = .next { s with h := h', active := false, t := 0 }
            ∧ ∀ i : Fin 8, (h'[i].toNat = if s.variant = 0 ∧ 5 ≤ i.val then s.h[i].toNat else (s.h[i].toNat + s.v[i].toNat) % 2 ^ 32)))
    ∧ LatchedWord 0x24 0x000000FF (fun _ => .endBlock)

/-- 42_compression R150 to R152: the schedule words satisfy the recurrence of their variant at every index. -/
def Obligations.ScheduleWordsSatisfyTheRecurrence : Prop :=
  ∀ (var : BitVec 3) (b : Vector Word 16),
    (∀ j : Fin 16, scheduleWord var b j = b[j])
      ∧ (∀ t, 16 ≤ t → var = 0 → scheduleWord var b t
          = (scheduleWord var b (t - 3) ^^^ scheduleWord var b (t - 8) ^^^ scheduleWord var b (t - 14) ^^^ scheduleWord var b (t - 16)).rotateLeft 1)
      ∧ (∀ t, 16 ≤ t → var ≠ 0 → scheduleWord var b t
          = sigma1 (scheduleWord var b (t - 2)) + scheduleWord var b (t - 7) + sigma0 (scheduleWord var b (t - 15)) + scheduleWord var b (t - 16))

/-- 42_compression R153: at the start of round n of a block `S[j] = W[n+j]`, and after END `S[j] = W[N+j]`. -/
def Obligations.WindowHoldsTheScheduleAtEveryRound : Prop :=
  ∀ (s : State), s.valid = true → s.active = false →
    (∀ n ≤ roundsOf s.variant, ∃ s', execAll (.beginBlock :: List.replicate n .round) s = .next s' ∧ s'.active = true
        ∧ s'.t.toNat = n ∧ ∀ j : Fin 16, s'.s[j] = scheduleWord s.variant s.m (n + j))
      ∧ ∃ s', execAll (.beginBlock :: (List.replicate (roundsOf s.variant) .round ++ [.endBlock])) s = .next s' ∧ s'.active = false
        ∧ ∀ j : Fin 16, s'.s[j] = scheduleWord s.variant s.m (roundsOf s.variant + j)

/-- 42_compression R174, R165, 10_state R40: BLOCK's errors and its first step; then N core steps, each leaving what a ROUND leaves, with AUTO = 1 and
so BUSY = 1, and one leaving what an END leaves: the hash state is then `Compress` of the old one and the block, the core idle, and nothing else
is changed but V and S. -/
def Obligations.BlockReplacesTheHashByItsCompression : Prop :=
  (∀ s : State,
    (s.valid = false → exec .block s = .next (recorded 4 s))
      ∧ (s.valid = true → s.active = true → exec .block s = .next (recorded 5 s))
      ∧ (s.valid = true → s.active = false → exec .block s = .next { begun s with auto := true }))
    ∧ LatchedWord 0x21 0x000000FF (fun _ => .block)
    ∧ ∀ s : State, s.Inv → s.pending = none → s.auto = false → s.valid = true → s.active = false →
        (∀ n ≤ roundsOf s.variant, ∃ r, execAll (List.replicate n .round) (begun s) = .next r ∧ r.active = true ∧ r.t.toNat = n
            ∧ coreSteps n { begun s with auto := true } = .next { r with auto := true })
          ∧ ∃ r r', execAll (List.replicate (roundsOf s.variant) .round) (begun s) = .next r ∧ exec .endBlock r = .next r'
            ∧ coreSteps (roundsOf s.variant + 1) { begun s with auto := true } = .next r'
            ∧ r' = { s with h := compress s.variant s.h s.m, v := r.v, s := r.s }

/-- 42_compression R175: BLOCK and step mode end in the same state. -/
def Obligations.BlockAgreesWithStepMode : Prop :=
  ∀ s : State, s.Inv → s.pending = none → s.auto = false → s.err = false → s.valid = true → s.active = false →
    ∃ s', andThen (exec .block s) (coreSteps (roundsOf s.variant + 1)) = .next s'
      ∧ execAll (.beginBlock :: (List.replicate (roundsOf s.variant) .round ++ [.endBlock])) s = .next s'

/-- 70_reset R260: a command other than a BLOCK that starts takes one core step; a BLOCK takes N + 2, and is busy before each of them. -/
def Obligations.CoreStepCountsAreOneAndNPlusTwo : Prop :=
  ∀ (s : State) (c : Word), s.Inv → s.pending = some c →
    (¬ (c = 0x00000021 ∧ s.valid = true ∧ s.active = false) → ∃ s', coreStep s = .next s' ∧ s'.busy = false)
      ∧ (c = 0x00000021 → s.valid = true → s.active = false →
          (∀ n < roundsOf s.variant + 2, ∃ s', coreSteps n s = .next s' ∧ s'.busy = true)
            ∧ ∃ s', coreSteps (roundsOf s.variant + 2) s = .next s' ∧ s'.busy = false)

-- ## Control

/-- 43_control R190: NOP changes nothing; written to CMD it makes the core busy for one core step, and while an error is recorded it is ignored. -/
def Obligations.NopChangesNothing : Prop :=
  (∀ s : State, exec .nop s = .next s) ∧ LatchedWord 0x00 0x000000FF (fun _ => .nop)
    ∧ (∀ s : State, s.busy = false → s.err = true → s.hostWrite 0 0x00000000 = s)
    ∧ ∀ s : State, s.Inv → s.busy = false → s.err = false →
        s.hostWrite 0 0x00000000 = { s with pending := some 0x00000000 } ∧ coreStep (s.hostWrite 0 0x00000000) = .next s

/-- 43_control R191, 70_reset R242: SRESET and the platform's Reset leave the core in the state of 10_state R36, the latter from any state at all,
busy or not. That the world around the core stays is the model's own (log entry 14). -/
def Obligations.SoftAndHardResetGiveTheResetState : Prop :=
  (∀ s : State, exec .sreset s = .next { State.reset with env := s.env })
    ∧ (∀ (s : State) rest, s.env.turns = .reset :: rest → step s = .next { State.reset with env := { s.env with turns := rest } })
    ∧ LatchedWord 0x30 0x000000FF (fun _ => .sreset) ∧ AcceptedInError 0x30 0x00000030

/-- 43_control R192, with the CMD write of 20_memory R54 and R57. -/
def Obligations.ClrerrClearsTheErrorAndNothingElse : Prop :=
  (∀ s : State, exec .clrerr s = .next { s with err := false, errcode := 0 })
    ∧ LatchedWord 0x31 0x000000FF (fun _ => .clrerr) ∧ AcceptedInError 0x31 0x00000031

-- ## State

/-- 10_state R36; 70_reset R241 (`STATUS` reads 0). -/
def Obligations.ResetClearsEveryRegister : Prop :=
  State.reset.opa = 0 ∧ State.reset.opb = 0 ∧ State.reset.opc = 0 ∧ State.reset.result = 0
    ∧ (∀ j : Fin 16, State.reset.m[j] = 0 ∧ State.reset.s[j] = 0) ∧ (∀ i : Fin 8, State.reset.h[i] = 0 ∧ State.reset.v[i] = 0)
    ∧ State.reset.err = false ∧ State.reset.errcode = 0 ∧ State.reset.valid = false ∧ State.reset.active = false
    ∧ State.reset.variant = 0 ∧ State.reset.t = 0 ∧ State.reset.pending = none ∧ State.reset.auto = false
    ∧ State.reset.statusWord = 0

/-- 10_state R30, R31, R33, R34: every field of STATUS. -/
def Obligations.StatusWordHoldsItsFields : Prop :=
  ∀ s : State,
    s.statusWord.getLsbD 0 = (s.pending.isSome || s.auto) ∧ s.statusWord.getLsbD 1 = s.err ∧ s.statusWord.getLsbD 2 = s.valid
      ∧ s.statusWord.getLsbD 3 = s.active ∧ s.statusWord.extractLsb' 4 4 = s.errcode ∧ s.statusWord.extractLsb' 8 3 = s.variant
      ∧ s.statusWord.getLsbD 11 = false ∧ s.statusWord.extractLsb' 16 7 = s.t ∧ s.statusWord.extractLsb' 23 9 = 0
      ∧ (s.valid = false → s.statusWord.extractLsb' 12 4 = 0)
      ∧ (s.valid = true → s.variant = 0 → s.statusWord.extractLsb' 12 4 = 5)
      ∧ (s.valid = true → s.variant = 1 → s.statusWord.extractLsb' 12 4 = 7)
      ∧ (s.valid = true → s.variant = 2 → s.statusWord.extractLsb' 12 4 = 8)

/-- 10_state R37, 60_exceptions R200 (last row) and what holds of a block in progress, at reset. -/
def Obligations.InvariantsHoldAtReset : Prop :=
  State.reset.Inv ∧ State.reset.CodeRecordable ∧ ∀ b, BlockInProgress b State.reset

/-- 10_state R37: every step of every agent keeps the five invariants. -/
def Obligations.EveryStepKeepsTheInvariants : Prop :=
  ∀ s s' : State, s.Inv → step s = .next s' → s'.Inv

/-- 42_compression R153, R165, R150: every step of every agent keeps what holds of a block in progress, for the block that BEGIN or BLOCK took from `M`: the
same block while one is active, the words of `M` where a step makes one active. So neither a write to `M` nor any other access, nor a failed
command, disturbs a block (20_memory R56, R57, R59). -/
def Obligations.EveryStepKeepsTheBlockInProgress : Prop :=
  ∀ (b : Vector Word 16) (s s' : State), BlockInProgress b s → step s = .next s' →
    BlockInProgress (if s.active = true then b else s.m) s'

/-- 60_exceptions R200, last row: no step records a code of 7..15. -/
def Obligations.EveryStepKeepsTheCodeRecordable : Prop :=
  ∀ s s' : State, s.CodeRecordable → step s = .next s' → s'.CodeRecordable

/-- From a state that holds the invariants every run of the whole system goes on, whatever the host does: no fault, no refusal
(60_exceptions R201, R207, R208, R211). -/
def Obligations.NoRunStopsFromTheInvariants : Prop :=
  ∀ (n : Nat) (s : State), s.Inv → SafeRun n s

/-- 60_exceptions R207: from a state that breaks an invariant the next core step is stuck. -/
def Obligations.CoreStepFromABrokenInvariantIsStuck : Prop :=
  ∀ s : State, ¬ s.Inv → s.busy = true → coreStep s = .fault .invariantBroken

/-- 10_state R22, R23, R27, R28, R29: which core steps write which registers; SRESET apart. -/
def Obligations.OnlyTheStatedCommandsWriteEachRegister : Prop :=
  ∀ s s' : State, coreStep s = .next s' → s.pending ≠ some 0x00000030 →
    s'.opa = s.opa ∧ s'.opb = s.opb ∧ s'.opc = s.opc ∧ s'.m = s.m ∧ s'.env = s.env
      ∧ (s'.result ≠ s.result → ∃ c, s.pending = some c
          ∧ ((1 ≤ (c.extractLsb' 0 8).toNat ∧ (c.extractLsb' 0 8).toNat ≤ 8) ∨ (0x10 ≤ (c.extractLsb' 0 8).toNat ∧ (c.extractLsb' 0 8).toNat ≤ 0x16)))
      ∧ (s'.h ≠ s.h → s.auto = true ∨ ∃ c, s.pending = some c ∧ (c.extractLsb' 0 8 = 0x20#8 ∨ c = 0x00000024))
      ∧ (s'.v ≠ s.v ∨ s'.s ≠ s.s → s.auto = true ∨ s.pending = some 0x00000021 ∨ s.pending = some 0x00000022 ∨ s.pending = some 0x00000023)

-- ## Errors

/-- 60_exceptions R205: a failed command changes only ERR, ERRCODE and PENDING; a failed write only ERR and ERRCODE. -/
def Obligations.ErrorsArePrecise : Prop :=
  (∀ s s' : State, coreStep s = .next s' → s.err = false → s'.err = true →
      s' = { s with err := true, errcode := s'.errcode, pending := none })
    ∧ ∀ (s : State) (o : Offset) (x : Word), s.err = false → (s.hostWrite o x).err = true →
      s.hostWrite o x = { s with err := true, errcode := (s.hostWrite o x).errcode }

/-- 60_exceptions R212, R201, R206: a recorded error and its code stay, over every step of every agent, until CLRERR or SRESET runs or Reset comes. -/
def Obligations.OnlyClrerrSresetAndResetClearTheError : Prop :=
  ∀ s s' : State, s.err = true → step s = .next s' →
    (s'.err = true ∧ s'.errcode = s.errcode)
      ∨ (∃ rest, s.env.turns = .reset :: rest)
      ∨ ((s.pending = some 0x00000030 ∨ s.pending = some 0x00000031) ∧ s'.pending = none
          ∧ (s.env.turns = [] ∨ ∃ rest, s.env.turns = .core :: rest))

/-- 60_exceptions R208: the operands, the block, the hash state and the working words decide no error, no status field and no sequencing: states that
differ only in them take core steps that differ only in them, or are both stuck. -/
def Obligations.DataDecideNoErrorAndNoControl : Prop :=
  ∀ s r : State, SameControl s r →
    (∃ s' r', coreStep s = .next s' ∧ coreStep r = .next r' ∧ SameControl s' r')
      ∨ (coreStep s = .fault .invariantBroken ∧ coreStep r = .fault .invariantBroken)

-- ## The register window

/-- 20_memory R53 with R58: every offset, busy or not; the value of an unreliable read while busy is the next free value, whatever that is. -/
def Obligations.HostReadReturnsTheMappedRegister : Prop :=
  ∀ (s : State) (o : Offset),
    (4 * o.toNat = 0x00 → ReadsAs s o 0) ∧ (4 * o.toNat = 0x04 → ReadsAs s o s.statusWord)
      ∧ (0x18 ≤ 4 * o.toNat → 4 * o.toNat ≤ 0x3C → ReadsAs s o 0)
      ∧ (s.busy = true → Unreliable o →
          s.hostRead o = { s with env := { s.env with answers := s.env.answers ++ [Config.busyRead s.env.draws], draws := s.env.draws + 1 } })
      ∧ (s.busy = false →
          (4 * o.toNat = 0x08 → ReadsAs s o s.opa) ∧ (4 * o.toNat = 0x0C → ReadsAs s o s.opb) ∧ (4 * o.toNat = 0x10 → ReadsAs s o s.opc)
            ∧ (4 * o.toNat = 0x14 → ReadsAs s o s.result)
            ∧ (∀ j : Fin 16, 4 * o.toNat = 0x40 + 4 * j → ReadsAs s o s.m[j]) ∧ (∀ i : Fin 8, 4 * o.toNat = 0x80 + 4 * i → ReadsAs s o s.h[i])
            ∧ (∀ i : Fin 8, 4 * o.toNat = 0xA0 + 4 * i → ReadsAs s o s.v[i]) ∧ (∀ j : Fin 16, 4 * o.toNat = 0xC0 + 4 * j → ReadsAs s o s.s[j]))

/-- 20_memory R54: a write to CMD while not busy. -/
def Obligations.CmdWriteLatchesUnlessInError : Prop :=
  ∀ (s : State) (x : Word), s.busy = false →
    (s.err = true → x ≠ 0x00000031 → x ≠ 0x00000030 → s.hostWrite 0 x = s)
      ∧ (s.err = false ∨ x = 0x00000031 ∨ x = 0x00000030 →
          s.hostWrite 0 x = { s with pending := some x } ∧ (s.hostWrite 0 x).statusWord.getLsbD 0 = true)

/-- 20_memory R57, 60_exceptions R202, R204: a write while busy, to any offset, changes no register and latches nothing; the core's next step leaves what it
would have left but for the error record, and a command that fails after such a write leaves code 6, or the earlier code. -/
def Obligations.BusyWriteRecordsSixAndTheCommandRunsOn : Prop :=
  ∀ (s : State) (o : Offset) (x : Word), s.busy = true →
    s.hostWrite o x = recorded 6 s
      ∧ ∀ s', coreStep s = .next s' →
          ∃ r, coreStep (s.hostWrite o x) = .next r ∧ r = { s' with err := r.err, errcode := r.errcode }
            ∧ (s'.err = true → r.err = true ∧ r.errcode = if s.err = true then s.errcode else 6)
            ∧ (s.auto = true → r = recorded 6 s')

/-- 20_memory R59 and R56: writes to OPA, OPB, OPC, M[j] and H[i] while not busy. -/
def Obligations.HostWriteStoresIntoWritableRegisters : Prop :=
  ∀ (s : State) (o : Offset) (x : Word), s.busy = false →
    (4 * o.toNat = 0x08 → s.hostWrite o x = { s with opa := x }) ∧ (4 * o.toNat = 0x0C → s.hostWrite o x = { s with opb := x })
      ∧ (4 * o.toNat = 0x10 → s.hostWrite o x = { s with opc := x })
      ∧ (∀ j : Fin 16, 4 * o.toNat = 0x40 + 4 * j → s.hostWrite o x = { s with m := s.m.set j x })
      ∧ (∀ i : Fin 8, 4 * o.toNat = 0x80 + 4 * i →
          (s.active = false → s.hostWrite o x = { s with h := s.h.set i x }) ∧ (s.active = true → s.hostWrite o x = recorded 5 s))

/-- 20_memory R55. -/
def Obligations.WritesToReadOnlyAndUnmappedOffsetsAreIgnored : Prop :=
  ∀ (s : State) (o : Offset) (x : Word), s.busy = false →
    4 * o.toNat = 0x04 ∨ 4 * o.toNat = 0x14 ∨ (0x18 ≤ 4 * o.toNat ∧ 4 * o.toNat ≤ 0x3C) ∨ (0xA0 ≤ 4 * o.toNat ∧ 4 * o.toNat ≤ 0xFC) →
    s.hostWrite o x = s

/-- A read after a write: while not busy, a writable word reads back as written, and every other offset reads as before
(20_memory R51 to R53; `H` only while ACTIVE = 0, R56). -/
def Obligations.WindowReadsBackWhatWasWritten : Prop :=
  ∀ (s : State) (o p : Offset) (x : Word), s.busy = false →
    4 * o.toNat = 0x08 ∨ 4 * o.toNat = 0x0C ∨ 4 * o.toNat = 0x10 ∨ (0x40 ≤ 4 * o.toNat ∧ 4 * o.toNat ≤ 0x7C)
      ∨ (0x80 ≤ 4 * o.toNat ∧ 4 * o.toNat ≤ 0x9C ∧ s.active = false) →
    ((s.hostWrite o x).hostRead o).env.answers = s.env.answers ++ [x]
      ∧ (p ≠ o → ((s.hostWrite o x).hostRead p).env = (s.hostRead p).env)

/-- 30_encoding R98, 10_state R40, R41: with the model's default order of turns (log entry 1) WAIT ends, after at most N + 2 core steps, busy before each of
them, and one poll, which reads BUSY = 0 and changes nothing but the host's place in its accesses. N is that of the variant held at the start. -/
def Obligations.WaitEndsWithTheCoreIdle : Prop :=
  ∀ (s : State) (rest : List HostOp), s.Inv → s.env.turns = [] → s.env.program = .wait :: rest →
    ∃ n ≤ roundsOf s.variant + 2, ∃ s', coreSteps n s = .next s' ∧ s'.busy = false
      ∧ (∀ k < n, ∃ r, coreSteps k s = .next r ∧ r.busy = true)
      ∧ runSteps (n + 1) s = .next { s' with env := { s.env with program := rest } }

-- ## The host's procedure

/-- 20_memory R68: the padded message. -/
def Obligations.PaddingFillsWholeBlocks : Prop :=
  ∀ msg : List Byte, 8 * msg.length < 2 ^ 64 →
    ∃ (z : Nat) (len : List Byte), z ≤ 63 ∧ (msg.length + z) % 64 = 55 ∧ pad msg = msg ++ [0x80] ++ List.replicate z 0 ++ len
      ∧ len.length = 8 ∧ len.foldl (fun acc b => acc * 256 + b.toNat) 0 = 8 * msg.length
      ∧ (pad msg).length % 64 = 0 ∧ 64 ≤ (pad msg).length

/-- 20_memory R60, R61: big-endian packing, and its inverse. -/
def Obligations.PackingIsBigEndian : Prop :=
  (∀ b0 b1 b2 b3 : Byte, (packWord b0 b1 b2 b3).toNat = b0.toNat * 2 ^ 24 + b1.toNat * 2 ^ 16 + b2.toNat * 2 ^ 8 + b3.toNat
      ∧ be32 (packWord b0 b1 b2 b3) = [b0, b1, b2, b3])
    ∧ ∀ (bytes : List Byte) (j : Fin 16), (packBlock bytes)[j]
        = packWord (bytes.getD (4 * j) 0) (bytes.getD (4 * j + 1) 0) (bytes.getD (4 * j + 2) 0) (bytes.getD (4 * j + 3) 0)

/-- 20_memory R70, with R41's independence of the order of the agents: from every idle state, active or not, and for every interleaving of core and host
turns (none a reset), the host's procedure runs to its end, and what the host forms from the words it read is the digest of the message under the
variant, or nothing where an error was already recorded. The list of turns and the answers are the model's own (log entries 1 and 13). -/
def Obligations.HostProcedureReturnsTheDigest : Prop :=
  ∀ (var : BitVec 3) (msg : List Byte) (ops : List HostOp) (s : State), s.Inv → s.busy = false → Turn.reset ∉ s.env.turns →
    digestProgram var msg = some ops → s.env.program = ops →
    ∃ (n : Nat) (s' : State), runSteps n s = .next s' ∧ s'.env.program = [] ∧ s'.busy = false
      ∧ ∃ words, s'.env.answers = s.env.answers ++ words
        ∧ digestFromAnswers words = if s.err = true then none else digest var msg

/-- 20_memory R65, R71: the digest has 20, 28 or 32 bytes, for exactly the messages of the domain and the supported variants, and the host's procedure
exists for exactly those. -/
def Obligations.DigestHasItsVariantsLength : Prop :=
  ∀ (var : BitVec 3) (msg : List Byte),
    (digest var msg).map List.length
        = (if 8 * msg.length < 2 ^ 64 then
            (if var = 0 then some 20 else if var = 1 then some 28 else if var = 2 then some 32 else none)
          else none)
      ∧ ((digestProgram var msg).isSome = true ↔ 8 * msg.length < 2 ^ 64 ∧ (var = 0 ∨ var = 1 ∨ var = 2))

/-- 30_encoding R95: what the assembler accepts and gives. -/
def Obligations.AssemblerRefusesOperandsTheFieldCannotHold : Prop :=
  ∀ k : Nat,
    (∀ op ∈ [Mnemonic.rotr, .rotl, .shr], ((AsmLine.mk op (some (.number k))).assemble.isSome ↔ k ≤ 31))
      ∧ ((AsmLine.mk .init (some (.number k))).assemble.isSome ↔ k ≤ 7)
      ∧ (k ≤ 31 → (AsmLine.mk .rotr (some (.number k))).assemble.map (fun i => (encode i).toNat) = some (0x06 + k * 2 ^ 8))
      ∧ (k ≤ 7 → (AsmLine.mk .init (some (.number k))).assemble.map (fun i => (encode i).toNat) = some (0x20 + k * 2 ^ 16))
end

