-- ==== Sys2Proof/Laws/Compress.lean ====
section
/-! SUPPORT. The schedule window and the schedule list, index by index (42_compression R150 to R154). -/

namespace Sys2Proof.Machine

theorem scheduleAdvance_of_lt (var : BitVec 3) (s : Vector Word 16) {j : Nat} (hj : j < 15) :
    (scheduleAdvance var s)[j] = s[j + 1] := by
  simp [scheduleAdvance, hj]

theorem scheduleAdvance_last (var : BitVec 3) (s : Vector Word 16) :
    (scheduleAdvance var s)[15] = newScheduleWord var s := by
  simp [scheduleAdvance]

theorem addState_getElem (var : BitVec 3) (h v : Vector Word 8) {i : Nat} (hi : i < 8) :
    (addState var h v)[i] = if i < stateWords var then add32 h[i] v[i] else h[i] := by
  simp [addState]

@[simp] theorem scheduleList_length (var : BitVec 3) (b : Vector Word 16) (n : Nat) :
    (scheduleList var b n).length = 16 + n := by
  induction n with
  | zero => simp [scheduleList]
  | succ n ih => simp [scheduleList, ih]; omega

/-- A longer schedule begins with the shorter one. -/
theorem scheduleList_getD_add (var : BitVec 3) (b : Vector Word 16) {n t : Nat} (ht : t < 16 + n) (k : Nat) :
    (scheduleList var b (n + k)).getD t 0 = (scheduleList var b n).getD t 0 := by
  induction k with
  | zero => rfl
  | succ k ih =>
    rw [← ih]
    have h : t < (scheduleList var b (n + k)).length := by simp; omega
    simp [scheduleList, List.getD_eq_getElem?_getD, List.getElem?_append_left h]

/-- `W[t]` read from any list that is long enough. -/
theorem scheduleList_getD (var : BitVec 3) (b : Vector Word 16) {n t : Nat} (ht : t < 16 + n) :
    (scheduleList var b n).getD t 0 = scheduleWord var b t := by
  obtain ⟨k, hk⟩ := Nat.exists_eq_add_of_le (show t - 15 ≤ n by omega)
  subst hk
  exact scheduleList_getD_add var b (by omega) k

theorem scheduleWord_of_lt (var : BitVec 3) (b : Vector Word 16) {t : Nat} (ht : t < 16) :
    scheduleWord var b t = b[t] := by
  rw [← scheduleList_getD var b (n := 0) (by omega)]
  simp [scheduleList, List.getD_eq_getElem?_getD, ht]

/-- `W[t + 16]` is the recurrence of `W[0..t+15]`. -/
theorem scheduleWord_add_sixteen (var : BitVec 3) (b : Vector Word 16) (t : Nat) :
    scheduleWord var b (t + 16) = scheduleRecurrence var (scheduleList var b t) := by
  rw [← scheduleList_getD var b (n := t + 1) (by omega)]
  have h : t + 16 = (scheduleList var b t).length := by simp; omega
  simp only [scheduleList, List.getD_eq_getElem?_getD]
  rw [h, List.getElem?_concat_length]
  rfl

@[simp] theorem roundsFrom_zero (var : BitVec 3) (w : List Word) (v : Vector Word 8) : roundsFrom var w v 0 = v := rfl

/-- One more round. -/
theorem roundsFrom_succ (var : BitVec 3) (w : List Word) (v : Vector Word 8) (n : Nat) :
    roundsFrom var w v (n + 1) = transition var n (roundsFrom var w v n) (w.getD n 0) := by
  simp [roundsFrom, List.range_succ]

/-- The rounds depend only on the schedule words they use. -/
theorem roundsFrom_congr (var : BitVec 3) {w w' : List Word} (v : Vector Word 8) {n : Nat} (h : ∀ t < n, w.getD t 0 = w'.getD t 0) :
    roundsFrom var w v n = roundsFrom var w' v n := by
  induction n with
  | zero => rfl
  | succ n ih => rw [roundsFrom_succ, roundsFrom_succ, ih fun t ht => h t (by omega), h n (by omega)]

end Sys2Proof.Machine
end

