-- ==== Sys2Proof/Laws/Decode.lean ====
section
/-! SUPPORT. The opcode map is unambiguous (30_encoding R85), and the decoder case by case (R90). -/

namespace Sys2Proof

theorem Mnemonic.ofOpcode_opcode (op : Mnemonic) : Mnemonic.ofOpcode op.opcode = some op := by
  cases op <;> decide

/-- No two rows of the opcode map share an OPCODE. -/
theorem opcodeMap_pairwise_ne : opcodeMap.Pairwise fun a b => a.opcode ≠ b.opcode := by decide

theorem mem_opcodeMap (op : Mnemonic) : op ∈ opcodeMap := by cases op <;> decide

theorem Mnemonic.ofOpcode_eq_some {op : BitVec 8} {row : Mnemonic} (h : Mnemonic.ofOpcode op = some row) :
    row.opcode = op := by
  have := List.find?_some h
  simpa using this

theorem Mnemonic.ofOpcode_eq_none {op : BitVec 8} (h : Mnemonic.ofOpcode op = none) (row : Mnemonic) :
    row.opcode ≠ op := by
  have := List.find?_eq_none.mp h row (mem_opcodeMap row)
  simpa using this

/-- The decoder's three answers, by the OPCODE field and the format's mask (30_encoding R90). -/
theorem decode_cases (c : Word) :
    ((∀ row : Mnemonic, row.opcode ≠ opcodeField c) ∧ decode c = .error .illegalOpcode)
      ∨ ∃ row : Mnemonic, row.opcode = opcodeField c
          ∧ ((row.format.wordWellFormed c = true ∧ decode c = .command (row.instr (shamtField c) (variantField c)))
            ∨ (row.format.wordWellFormed c = false ∧ decode c = .error .reservedBits)) := by
  unfold decode
  cases h : Mnemonic.ofOpcode (opcodeField c) with
  | none => exact .inl ⟨Mnemonic.ofOpcode_eq_none h, rfl⟩
  | some row =>
    refine .inr ⟨row, Mnemonic.ofOpcode_eq_some h, ?_⟩
    cases hw : row.format.wordWellFormed c <;> simp [hw]

/-- A word with an assigned OPCODE and no bit outside the format's mask. -/
theorem decode_of_wellFormed (c : Word) (row : Mnemonic) (ho : opcodeField c = row.opcode)
    (hm : row.format.wordWellFormed c = true) : decode c = .command (row.instr (shamtField c) (variantField c)) := by
  simp [decode, ho, Mnemonic.ofOpcode_opcode, hm]

/-- A word with an assigned OPCODE and a bit outside the format's mask (30_encoding R87). -/
theorem decode_of_not_wellFormed (c : Word) (row : Mnemonic) (ho : opcodeField c = row.opcode)
    (hm : row.format.wordWellFormed c = false) : decode c = .error .reservedBits := by
  simp [decode, ho, Mnemonic.ofOpcode_opcode, hm]

end Sys2Proof
end

