-- ==== Sys2Proof/Laws/Functions.lean ====
section
/-! SUPPORT. The word operators of 00_scope R11, bit by bit and against the library's rotates. -/

namespace Sys2Proof.Machine

theorem getLsbD_rotr32 (x : Word) {n : Nat} (hn : n < 32) {i : Nat} (hi : i < 32) :
    (rotr32 x n).getLsbD i = x.getLsbD ((i + n) % 32) := by
  simp only [rotr32, BitVec.getLsbD_or, BitVec.getLsbD_ushiftRight, BitVec.getLsbD_shiftLeft]
  by_cases h : i + n < 32
  · have : i < 32 - n := by omega
    rw [Nat.mod_eq_of_lt h]
    simp [this, Nat.add_comm]
  · have h1 : ¬ i < 32 - n := by omega
    have h2 : (i + n) % 32 = i - (32 - n) := by omega
    have h3 : x.getLsbD (n + i) = false := BitVec.getLsbD_of_ge x (n + i) (by omega)
    simp [hi, h1, h2, h3]

theorem getLsbD_rotl32 (x : Word) {n : Nat} (hn : n < 32) {i : Nat} (hi : i < 32) :
    (rotl32 x n).getLsbD i = x.getLsbD ((i + 32 - n) % 32) := by
  simp only [rotl32, BitVec.getLsbD_or, BitVec.getLsbD_ushiftRight, BitVec.getLsbD_shiftLeft]
  by_cases h : i < n
  · have h2 : (i + 32 - n) % 32 = 32 - n + i := by omega
    simp [hi, h, h2]
  · have h2 : (i + 32 - n) % 32 = i - n := by omega
    have h3 : x.getLsbD (32 - n + i) = false := BitVec.getLsbD_of_ge x (32 - n + i) (by omega)
    simp [hi, h, h2, h3]

theorem rotr32_eq_rotateRight (x : Word) {n : Nat} (hn : n < 32) : rotr32 x n = x.rotateRight n := by
  simp [rotr32, BitVec.rotateRight_def, Nat.mod_eq_of_lt hn]

theorem rotl32_eq_rotateLeft (x : Word) {n : Nat} (hn : n < 32) : rotl32 x n = x.rotateLeft n := by
  simp [rotl32, BitVec.rotateLeft_def, Nat.mod_eq_of_lt hn]

/-- 41_function_units R130: the equivalent form of Ch. -/
theorem ch_eq_or (x y z : Word) : ch x y z = (x &&& y) ||| (~~~ x &&& z) := by
  ext i hi
  simp only [ch, BitVec.getElem_xor, BitVec.getElem_or, BitVec.getElem_and, BitVec.getElem_not]
  cases x[i] <;> simp

/-- 41_function_units R130: the equivalent form of Maj. -/
theorem maj_eq_or (x y z : Word) : maj x y z = (x &&& y) ||| (x &&& z) ||| (y &&& z) := by
  ext i hi
  simp only [maj, BitVec.getElem_xor, BitVec.getElem_or, BitVec.getElem_and]
  cases x[i] <;> cases y[i] <;> cases z[i] <;> rfl

end Sys2Proof.Machine
end

