-- ==== Sys2Proof/Laws/HostProcedure.lean ====
section
/-! SUPPORT. The host's procedure: what it forms from its reads (20_memory R70). -/

namespace Sys2Proof.Machine

/-- With STATUS read last, the result is the words read before it, serialised, unless STATUS has ERR = 1. -/
@[simp] theorem digestFromAnswers_append_status (words : List Word) (status : Word) :
    digestFromAnswers (words ++ [status]) = if status.getLsbD 1 then none else some (words.flatMap be32) := by
  simp [digestFromAnswers]

/-- The DWORDS words of a hash state, one by one. -/
theorem map_getD_range_eq_take (h : Vector Word 8) {n : Nat} (hn : n ≤ 8) :
    (List.range n).map (fun i => h.toList.getD i 0) = h.toList.take n := by
  apply List.ext_getElem
  · simp; omega
  · intro i h1 _
    simp only [List.length_map, List.length_range] at h1
    simp [List.getD_eq_getElem?_getD, show i < 8 by omega]

end Sys2Proof.Machine
end

