-- ==== Sys2Proof/Laws/State.lean ====
section
/-! SUPPORT. One lemma per field per update of State, so that no proof unfolds a record update. -/

namespace Sys2Proof.Machine

-- ### setResult

@[simp] theorem State.setResult_opa (s : State) (x : Word) : (s.setResult x).opa = s.opa := rfl
@[simp] theorem State.setResult_opb (s : State) (x : Word) : (s.setResult x).opb = s.opb := rfl
@[simp] theorem State.setResult_opc (s : State) (x : Word) : (s.setResult x).opc = s.opc := rfl
@[simp] theorem State.setResult_result (s : State) (x : Word) : (s.setResult x).result = x := rfl
@[simp] theorem State.setResult_m (s : State) (x : Word) : (s.setResult x).m = s.m := rfl
@[simp] theorem State.setResult_h (s : State) (x : Word) : (s.setResult x).h = s.h := rfl
@[simp] theorem State.setResult_v (s : State) (x : Word) : (s.setResult x).v = s.v := rfl
@[simp] theorem State.setResult_s (s : State) (x : Word) : (s.setResult x).s = s.s := rfl
@[simp] theorem State.setResult_err (s : State) (x : Word) : (s.setResult x).err = s.err := rfl
@[simp] theorem State.setResult_errcode (s : State) (x : Word) : (s.setResult x).errcode = s.errcode := rfl
@[simp] theorem State.setResult_valid (s : State) (x : Word) : (s.setResult x).valid = s.valid := rfl
@[simp] theorem State.setResult_active (s : State) (x : Word) : (s.setResult x).active = s.active := rfl
@[simp] theorem State.setResult_variant (s : State) (x : Word) : (s.setResult x).variant = s.variant := rfl
@[simp] theorem State.setResult_t (s : State) (x : Word) : (s.setResult x).t = s.t := rfl
@[simp] theorem State.setResult_pending (s : State) (x : Word) : (s.setResult x).pending = s.pending := rfl
@[simp] theorem State.setResult_auto (s : State) (x : Word) : (s.setResult x).auto = s.auto := rfl
@[simp] theorem State.setResult_env (s : State) (x : Word) : (s.setResult x).env = s.env := rfl

-- ### clearError

@[simp] theorem State.clearError_opa (s : State) : (s.clearError).opa = s.opa := rfl
@[simp] theorem State.clearError_opb (s : State) : (s.clearError).opb = s.opb := rfl
@[simp] theorem State.clearError_opc (s : State) : (s.clearError).opc = s.opc := rfl
@[simp] theorem State.clearError_result (s : State) : (s.clearError).result = s.result := rfl
@[simp] theorem State.clearError_m (s : State) : (s.clearError).m = s.m := rfl
@[simp] theorem State.clearError_h (s : State) : (s.clearError).h = s.h := rfl
@[simp] theorem State.clearError_v (s : State) : (s.clearError).v = s.v := rfl
@[simp] theorem State.clearError_s (s : State) : (s.clearError).s = s.s := rfl
@[simp] theorem State.clearError_err (s : State) : (s.clearError).err = false := rfl
@[simp] theorem State.clearError_errcode (s : State) : (s.clearError).errcode = 0 := rfl
@[simp] theorem State.clearError_valid (s : State) : (s.clearError).valid = s.valid := rfl
@[simp] theorem State.clearError_active (s : State) : (s.clearError).active = s.active := rfl
@[simp] theorem State.clearError_variant (s : State) : (s.clearError).variant = s.variant := rfl
@[simp] theorem State.clearError_t (s : State) : (s.clearError).t = s.t := rfl
@[simp] theorem State.clearError_pending (s : State) : (s.clearError).pending = s.pending := rfl
@[simp] theorem State.clearError_auto (s : State) : (s.clearError).auto = s.auto := rfl
@[simp] theorem State.clearError_env (s : State) : (s.clearError).env = s.env := rfl

-- ### resetCore

@[simp] theorem State.resetCore_opa (s : State) : (s.resetCore).opa = State.reset.opa := rfl
@[simp] theorem State.resetCore_opb (s : State) : (s.resetCore).opb = State.reset.opb := rfl
@[simp] theorem State.resetCore_opc (s : State) : (s.resetCore).opc = State.reset.opc := rfl
@[simp] theorem State.resetCore_result (s : State) : (s.resetCore).result = State.reset.result := rfl
@[simp] theorem State.resetCore_m (s : State) : (s.resetCore).m = State.reset.m := rfl
@[simp] theorem State.resetCore_h (s : State) : (s.resetCore).h = State.reset.h := rfl
@[simp] theorem State.resetCore_v (s : State) : (s.resetCore).v = State.reset.v := rfl
@[simp] theorem State.resetCore_s (s : State) : (s.resetCore).s = State.reset.s := rfl
@[simp] theorem State.resetCore_err (s : State) : (s.resetCore).err = State.reset.err := rfl
@[simp] theorem State.resetCore_errcode (s : State) : (s.resetCore).errcode = State.reset.errcode := rfl
@[simp] theorem State.resetCore_valid (s : State) : (s.resetCore).valid = State.reset.valid := rfl
@[simp] theorem State.resetCore_active (s : State) : (s.resetCore).active = State.reset.active := rfl
@[simp] theorem State.resetCore_variant (s : State) : (s.resetCore).variant = State.reset.variant := rfl
@[simp] theorem State.resetCore_t (s : State) : (s.resetCore).t = State.reset.t := rfl
@[simp] theorem State.resetCore_pending (s : State) : (s.resetCore).pending = State.reset.pending := rfl
@[simp] theorem State.resetCore_auto (s : State) : (s.resetCore).auto = State.reset.auto := rfl
@[simp] theorem State.resetCore_env (s : State) : (s.resetCore).env = s.env := rfl

-- ### selectVariant

@[simp] theorem State.selectVariant_opa (s : State) (c : BitVec 3) : (s.selectVariant c).opa = s.opa := rfl
@[simp] theorem State.selectVariant_opb (s : State) (c : BitVec 3) : (s.selectVariant c).opb = s.opb := rfl
@[simp] theorem State.selectVariant_opc (s : State) (c : BitVec 3) : (s.selectVariant c).opc = s.opc := rfl
@[simp] theorem State.selectVariant_result (s : State) (c : BitVec 3) : (s.selectVariant c).result = s.result := rfl
@[simp] theorem State.selectVariant_m (s : State) (c : BitVec 3) : (s.selectVariant c).m = s.m := rfl
@[simp] theorem State.selectVariant_h (s : State) (c : BitVec 3) : (s.selectVariant c).h = initialHash c := rfl
@[simp] theorem State.selectVariant_v (s : State) (c : BitVec 3) : (s.selectVariant c).v = s.v := rfl
@[simp] theorem State.selectVariant_s (s : State) (c : BitVec 3) : (s.selectVariant c).s = s.s := rfl
@[simp] theorem State.selectVariant_err (s : State) (c : BitVec 3) : (s.selectVariant c).err = s.err := rfl
@[simp] theorem State.selectVariant_errcode (s : State) (c : BitVec 3) : (s.selectVariant c).errcode = s.errcode := rfl
@[simp] theorem State.selectVariant_valid (s : State) (c : BitVec 3) : (s.selectVariant c).valid = true := rfl
@[simp] theorem State.selectVariant_active (s : State) (c : BitVec 3) : (s.selectVariant c).active = false := rfl
@[simp] theorem State.selectVariant_variant (s : State) (c : BitVec 3) : (s.selectVariant c).variant = c := rfl
@[simp] theorem State.selectVariant_t (s : State) (c : BitVec 3) : (s.selectVariant c).t = 0 := rfl
@[simp] theorem State.selectVariant_pending (s : State) (c : BitVec 3) : (s.selectVariant c).pending = s.pending := rfl
@[simp] theorem State.selectVariant_auto (s : State) (c : BitVec 3) : (s.selectVariant c).auto = s.auto := rfl
@[simp] theorem State.selectVariant_env (s : State) (c : BitVec 3) : (s.selectVariant c).env = s.env := rfl

-- ### beginStep

@[simp] theorem State.beginStep_opa (s : State) : (s.beginStep).opa = s.opa := rfl
@[simp] theorem State.beginStep_opb (s : State) : (s.beginStep).opb = s.opb := rfl
@[simp] theorem State.beginStep_opc (s : State) : (s.beginStep).opc = s.opc := rfl
@[simp] theorem State.beginStep_result (s : State) : (s.beginStep).result = s.result := rfl
@[simp] theorem State.beginStep_m (s : State) : (s.beginStep).m = s.m := rfl
@[simp] theorem State.beginStep_h (s : State) : (s.beginStep).h = s.h := rfl
@[simp] theorem State.beginStep_v (s : State) : (s.beginStep).v = beginVars s.variant s.h := rfl
@[simp] theorem State.beginStep_s (s : State) : (s.beginStep).s = s.m := rfl
@[simp] theorem State.beginStep_err (s : State) : (s.beginStep).err = s.err := rfl
@[simp] theorem State.beginStep_errcode (s : State) : (s.beginStep).errcode = s.errcode := rfl
@[simp] theorem State.beginStep_valid (s : State) : (s.beginStep).valid = s.valid := rfl
@[simp] theorem State.beginStep_active (s : State) : (s.beginStep).active = true := rfl
@[simp] theorem State.beginStep_variant (s : State) : (s.beginStep).variant = s.variant := rfl
@[simp] theorem State.beginStep_t (s : State) : (s.beginStep).t = 0 := rfl
@[simp] theorem State.beginStep_pending (s : State) : (s.beginStep).pending = s.pending := rfl
@[simp] theorem State.beginStep_auto (s : State) : (s.beginStep).auto = s.auto := rfl
@[simp] theorem State.beginStep_env (s : State) : (s.beginStep).env = s.env := rfl

-- ### roundStep

@[simp] theorem State.roundStep_opa (s : State) : (s.roundStep).opa = s.opa := rfl
@[simp] theorem State.roundStep_opb (s : State) : (s.roundStep).opb = s.opb := rfl
@[simp] theorem State.roundStep_opc (s : State) : (s.roundStep).opc = s.opc := rfl
@[simp] theorem State.roundStep_result (s : State) : (s.roundStep).result = s.result := rfl
@[simp] theorem State.roundStep_m (s : State) : (s.roundStep).m = s.m := rfl
@[simp] theorem State.roundStep_h (s : State) : (s.roundStep).h = s.h := rfl
@[simp] theorem State.roundStep_v (s : State) : (s.roundStep).v = transition s.variant s.t.toNat s.v s.s[0] := rfl
@[simp] theorem State.roundStep_s (s : State) : (s.roundStep).s = scheduleAdvance s.variant s.s := rfl
@[simp] theorem State.roundStep_err (s : State) : (s.roundStep).err = s.err := rfl
@[simp] theorem State.roundStep_errcode (s : State) : (s.roundStep).errcode = s.errcode := rfl
@[simp] theorem State.roundStep_valid (s : State) : (s.roundStep).valid = s.valid := rfl
@[simp] theorem State.roundStep_active (s : State) : (s.roundStep).active = s.active := rfl
@[simp] theorem State.roundStep_variant (s : State) : (s.roundStep).variant = s.variant := rfl
@[simp] theorem State.roundStep_t (s : State) : (s.roundStep).t = s.t + 1 := rfl
@[simp] theorem State.roundStep_pending (s : State) : (s.roundStep).pending = s.pending := rfl
@[simp] theorem State.roundStep_auto (s : State) : (s.roundStep).auto = s.auto := rfl
@[simp] theorem State.roundStep_env (s : State) : (s.roundStep).env = s.env := rfl

-- ### endStep

@[simp] theorem State.endStep_opa (s : State) : (s.endStep).opa = s.opa := rfl
@[simp] theorem State.endStep_opb (s : State) : (s.endStep).opb = s.opb := rfl
@[simp] theorem State.endStep_opc (s : State) : (s.endStep).opc = s.opc := rfl
@[simp] theorem State.endStep_result (s : State) : (s.endStep).result = s.result := rfl
@[simp] theorem State.endStep_m (s : State) : (s.endStep).m = s.m := rfl
@[simp] theorem State.endStep_h (s : State) : (s.endStep).h = addState s.variant s.h s.v := rfl
@[simp] theorem State.endStep_v (s : State) : (s.endStep).v = s.v := rfl
@[simp] theorem State.endStep_s (s : State) : (s.endStep).s = s.s := rfl
@[simp] theorem State.endStep_err (s : State) : (s.endStep).err = s.err := rfl
@[simp] theorem State.endStep_errcode (s : State) : (s.endStep).errcode = s.errcode := rfl
@[simp] theorem State.endStep_valid (s : State) : (s.endStep).valid = s.valid := rfl
@[simp] theorem State.endStep_active (s : State) : (s.endStep).active = false := rfl
@[simp] theorem State.endStep_variant (s : State) : (s.endStep).variant = s.variant := rfl
@[simp] theorem State.endStep_t (s : State) : (s.endStep).t = 0 := rfl
@[simp] theorem State.endStep_pending (s : State) : (s.endStep).pending = s.pending := rfl
@[simp] theorem State.endStep_auto (s : State) : (s.endStep).auto = s.auto := rfl
@[simp] theorem State.endStep_env (s : State) : (s.endStep).env = s.env := rfl

-- ### takePending

@[simp] theorem State.takePending_opa (s : State) : (s.takePending).opa = s.opa := rfl
@[simp] theorem State.takePending_opb (s : State) : (s.takePending).opb = s.opb := rfl
@[simp] theorem State.takePending_opc (s : State) : (s.takePending).opc = s.opc := rfl
@[simp] theorem State.takePending_result (s : State) : (s.takePending).result = s.result := rfl
@[simp] theorem State.takePending_m (s : State) : (s.takePending).m = s.m := rfl
@[simp] theorem State.takePending_h (s : State) : (s.takePending).h = s.h := rfl
@[simp] theorem State.takePending_v (s : State) : (s.takePending).v = s.v := rfl
@[simp] theorem State.takePending_s (s : State) : (s.takePending).s = s.s := rfl
@[simp] theorem State.takePending_err (s : State) : (s.takePending).err = s.err := rfl
@[simp] theorem State.takePending_errcode (s : State) : (s.takePending).errcode = s.errcode := rfl
@[simp] theorem State.takePending_valid (s : State) : (s.takePending).valid = s.valid := rfl
@[simp] theorem State.takePending_active (s : State) : (s.takePending).active = s.active := rfl
@[simp] theorem State.takePending_variant (s : State) : (s.takePending).variant = s.variant := rfl
@[simp] theorem State.takePending_t (s : State) : (s.takePending).t = s.t := rfl
@[simp] theorem State.takePending_pending (s : State) : (s.takePending).pending = none := rfl
@[simp] theorem State.takePending_auto (s : State) : (s.takePending).auto = s.auto := rfl
@[simp] theorem State.takePending_env (s : State) : (s.takePending).env = s.env := rfl

-- ### nextTurn

@[simp] theorem State.nextTurn_opa (s : State) (l : List Turn) : (s.nextTurn l).opa = s.opa := rfl
@[simp] theorem State.nextTurn_opb (s : State) (l : List Turn) : (s.nextTurn l).opb = s.opb := rfl
@[simp] theorem State.nextTurn_opc (s : State) (l : List Turn) : (s.nextTurn l).opc = s.opc := rfl
@[simp] theorem State.nextTurn_result (s : State) (l : List Turn) : (s.nextTurn l).result = s.result := rfl
@[simp] theorem State.nextTurn_m (s : State) (l : List Turn) : (s.nextTurn l).m = s.m := rfl
@[simp] theorem State.nextTurn_h (s : State) (l : List Turn) : (s.nextTurn l).h = s.h := rfl
@[simp] theorem State.nextTurn_v (s : State) (l : List Turn) : (s.nextTurn l).v = s.v := rfl
@[simp] theorem State.nextTurn_s (s : State) (l : List Turn) : (s.nextTurn l).s = s.s := rfl
@[simp] theorem State.nextTurn_err (s : State) (l : List Turn) : (s.nextTurn l).err = s.err := rfl
@[simp] theorem State.nextTurn_errcode (s : State) (l : List Turn) : (s.nextTurn l).errcode = s.errcode := rfl
@[simp] theorem State.nextTurn_valid (s : State) (l : List Turn) : (s.nextTurn l).valid = s.valid := rfl
@[simp] theorem State.nextTurn_active (s : State) (l : List Turn) : (s.nextTurn l).active = s.active := rfl
@[simp] theorem State.nextTurn_variant (s : State) (l : List Turn) : (s.nextTurn l).variant = s.variant := rfl
@[simp] theorem State.nextTurn_t (s : State) (l : List Turn) : (s.nextTurn l).t = s.t := rfl
@[simp] theorem State.nextTurn_pending (s : State) (l : List Turn) : (s.nextTurn l).pending = s.pending := rfl
@[simp] theorem State.nextTurn_auto (s : State) (l : List Turn) : (s.nextTurn l).auto = s.auto := rfl
@[simp] theorem State.nextTurn_env (s : State) (l : List Turn) : (s.nextTurn l).env = { s.env with turns := l } := rfl

-- ### nextAccess

@[simp] theorem State.nextAccess_opa (s : State) (l : List HostOp) : (s.nextAccess l).opa = s.opa := rfl
@[simp] theorem State.nextAccess_opb (s : State) (l : List HostOp) : (s.nextAccess l).opb = s.opb := rfl
@[simp] theorem State.nextAccess_opc (s : State) (l : List HostOp) : (s.nextAccess l).opc = s.opc := rfl
@[simp] theorem State.nextAccess_result (s : State) (l : List HostOp) : (s.nextAccess l).result = s.result := rfl
@[simp] theorem State.nextAccess_m (s : State) (l : List HostOp) : (s.nextAccess l).m = s.m := rfl
@[simp] theorem State.nextAccess_h (s : State) (l : List HostOp) : (s.nextAccess l).h = s.h := rfl
@[simp] theorem State.nextAccess_v (s : State) (l : List HostOp) : (s.nextAccess l).v = s.v := rfl
@[simp] theorem State.nextAccess_s (s : State) (l : List HostOp) : (s.nextAccess l).s = s.s := rfl
@[simp] theorem State.nextAccess_err (s : State) (l : List HostOp) : (s.nextAccess l).err = s.err := rfl
@[simp] theorem State.nextAccess_errcode (s : State) (l : List HostOp) : (s.nextAccess l).errcode = s.errcode := rfl
@[simp] theorem State.nextAccess_valid (s : State) (l : List HostOp) : (s.nextAccess l).valid = s.valid := rfl
@[simp] theorem State.nextAccess_active (s : State) (l : List HostOp) : (s.nextAccess l).active = s.active := rfl
@[simp] theorem State.nextAccess_variant (s : State) (l : List HostOp) : (s.nextAccess l).variant = s.variant := rfl
@[simp] theorem State.nextAccess_t (s : State) (l : List HostOp) : (s.nextAccess l).t = s.t := rfl
@[simp] theorem State.nextAccess_pending (s : State) (l : List HostOp) : (s.nextAccess l).pending = s.pending := rfl
@[simp] theorem State.nextAccess_auto (s : State) (l : List HostOp) : (s.nextAccess l).auto = s.auto := rfl
@[simp] theorem State.nextAccess_env (s : State) (l : List HostOp) : (s.nextAccess l).env = { s.env with program := l } := rfl

-- ### recordError: the first code is kept, and nothing else changes (60_exceptions R201, R202)

@[simp] theorem State.recordError_opa (s : State) (e : CmdError) : (s.recordError e).opa = s.opa := by
  unfold State.recordError; split <;> rfl
@[simp] theorem State.recordError_opb (s : State) (e : CmdError) : (s.recordError e).opb = s.opb := by
  unfold State.recordError; split <;> rfl
@[simp] theorem State.recordError_opc (s : State) (e : CmdError) : (s.recordError e).opc = s.opc := by
  unfold State.recordError; split <;> rfl
@[simp] theorem State.recordError_result (s : State) (e : CmdError) : (s.recordError e).result = s.result := by
  unfold State.recordError; split <;> rfl
@[simp] theorem State.recordError_m (s : State) (e : CmdError) : (s.recordError e).m = s.m := by
  unfold State.recordError; split <;> rfl
@[simp] theorem State.recordError_h (s : State) (e : CmdError) : (s.recordError e).h = s.h := by
  unfold State.recordError; split <;> rfl
@[simp] theorem State.recordError_v (s : State) (e : CmdError) : (s.recordError e).v = s.v := by
  unfold State.recordError; split <;> rfl
@[simp] theorem State.recordError_s (s : State) (e : CmdError) : (s.recordError e).s = s.s := by
  unfold State.recordError; split <;> rfl
@[simp] theorem State.recordError_valid (s : State) (e : CmdError) : (s.recordError e).valid = s.valid := by
  unfold State.recordError; split <;> rfl
@[simp] theorem State.recordError_active (s : State) (e : CmdError) : (s.recordError e).active = s.active := by
  unfold State.recordError; split <;> rfl
@[simp] theorem State.recordError_variant (s : State) (e : CmdError) : (s.recordError e).variant = s.variant := by
  unfold State.recordError; split <;> rfl
@[simp] theorem State.recordError_t (s : State) (e : CmdError) : (s.recordError e).t = s.t := by
  unfold State.recordError; split <;> rfl
@[simp] theorem State.recordError_pending (s : State) (e : CmdError) : (s.recordError e).pending = s.pending := by
  unfold State.recordError; split <;> rfl
@[simp] theorem State.recordError_auto (s : State) (e : CmdError) : (s.recordError e).auto = s.auto := by
  unfold State.recordError; split <;> rfl
@[simp] theorem State.recordError_env (s : State) (e : CmdError) : (s.recordError e).env = s.env := by
  unfold State.recordError; split <;> rfl
@[simp] theorem State.recordError_err (s : State) (e : CmdError) : (s.recordError e).err = true := by
  unfold State.recordError; split <;> simp_all
@[simp] theorem State.recordError_errcode (s : State) (e : CmdError) :
    (s.recordError e).errcode = if s.err then s.errcode else e.code := by
  unfold State.recordError; split <;> rfl

end Sys2Proof.Machine
end

