-- ==== Sys2Proof/Laws/Ops.lean ====
section
/-! SUPPORT. What the shared operations, a core step, a host access and a step can do, said once. -/

namespace Sys2Proof.Machine

/-- Recording an error as one record update. -/
theorem State.recordError_eq (s : State) (e : CmdError) :
    s.recordError e = { s with err := true, errcode := if s.err = true then s.errcode else e.code } := by
  unfold State.recordError
  cases h : s.err
  · simp
  · obtain ⟨⟩ := s; simp_all

@[simp] theorem raiseError_eq (s : State) (e : CmdError) : raiseError e s = .next (s.recordError e) := rfl

/-- Every command ends in a next state: its effect or a recorded error. -/
theorem exec_answers_next (i : Instr) (s : State) : ∃ s', exec i s = .next s' := by
  cases i
  case init var => simp only [exec, execInit, raiseError]; split <;> exact ⟨_, rfl⟩
  case block => simp only [exec, execBlock, raiseError]; (repeat' split) <;> exact ⟨_, rfl⟩
  case beginBlock => simp only [exec, execBegin, raiseError]; (repeat' split) <;> exact ⟨_, rfl⟩
  case round => simp only [exec, execRound, raiseError]; (repeat' split) <;> exact ⟨_, rfl⟩
  case endBlock => simp only [exec, execEnd, raiseError]; split <;> exact ⟨_, rfl⟩
  all_goals exact ⟨_, rfl⟩

theorem execute_answers_next (c : Word) (s : State) : ∃ s', execute c s = .next s' := by
  unfold execute
  split
  · exact exec_answers_next _ _
  · exact ⟨_, rfl⟩

/-- The core step of a latched word. -/
theorem coreStep_of_pending {s : State} {c : Word} (hi : s.Inv) (hp : s.pending = some c) :
    coreStep s = execute c s.takePending := by
  have hb : s.busy = true := by simp [State.busy, hp]
  unfold coreStep
  rw [hb, if_neg (by decide), if_pos hi, hp]

/-- The core step of a running BLOCK. -/
theorem coreStep_of_auto {s : State} (hi : s.Inv) (hp : s.pending = none) (ha : s.auto = true) :
    coreStep s = .next s.autoStep := by
  have hb : s.busy = true := by simp [State.busy, ha]
  unfold coreStep
  rw [hb, if_neg (by decide), if_pos hi, hp]

theorem coreStep_of_idle {s : State} (hb : s.busy = false) : coreStep s = .next s := by simp [coreStep, hb]

/-- Everything a core step can do. -/
theorem coreStep_cases {s s' : State} (h : coreStep s = .next s') :
    (s.busy = false ∧ s' = s)
      ∨ (s.Inv ∧ ∃ c, s.pending = some c ∧ execute c s.takePending = .next s')
      ∨ (s.Inv ∧ s.pending = none ∧ s.auto = true ∧ s' = s.autoStep) := by
  unfold coreStep at h
  split at h
  · cases h; exact .inl ⟨‹_›, rfl⟩
  · split at h
    · split at h
      · exact .inr (.inl ⟨‹_›, _, ‹_›, h⟩)
      · cases h
        refine .inr (.inr ⟨‹_›, ‹_›, ?_, rfl⟩)
        simp_all [State.busy]
    · cases h

/-- Recording an error reads nothing of the world around the core. -/
theorem State.recordError_withEnv (s : State) (env : Environment) (e : CmdError) :
    State.recordError { s with env := env } e = { s.recordError e with env := env } := by
  unfold State.recordError
  cases h : s.err <;> simp [h]

/-- A command reads and writes nothing of the world around the core. -/
theorem exec_withEnv {i : Instr} {s s' : State} (env : Environment) (h : exec i s = .next s') :
    exec i { s with env := env } = .next { s' with env := env } := by
  have hr := fun e => congrArg (Host.Outcome.next (φ := Fault) (ρ := Refusal)) (State.recordError_withEnv s env e)
  cases i
  case init var =>
    simp only [exec, execInit] at h ⊢
    split at h <;> cases h <;> rename_i hc
    · rw [if_pos hc]; rfl
    · rw [if_neg hc]; exact hr _
  case block | beginBlock =>
    simp only [exec, execBlock, execBegin] at h ⊢
    split at h
    · cases h; rename_i hc; rw [if_pos hc]; exact hr _
    · rename_i hc; rw [if_neg hc]
      split at h <;> cases h <;> rename_i hc
      · rw [if_pos hc]; exact hr _
      · rw [if_neg hc]; rfl
  case round =>
    simp only [exec, execRound] at h ⊢
    split at h
    · cases h; rename_i hc; rw [if_pos hc]; exact hr _
    · rename_i hc; rw [if_neg hc]
      split at h <;> cases h <;> rename_i hc
      · rw [if_pos hc]; exact hr _
      · rw [if_neg hc]; rfl
  case endBlock =>
    simp only [exec, execEnd] at h ⊢
    split at h <;> cases h <;> rename_i hc
    · rw [if_pos hc]; exact hr _
    · rw [if_neg hc]; rfl
  all_goals (cases h; rfl)

/-- A core step reads and writes nothing of the world around the core (10_state R40). -/
theorem coreStep_withEnv {s s' : State} (env : Environment) (h : coreStep s = .next s') :
    coreStep { s with env := env } = .next { s' with env := env } := by
  rcases coreStep_cases h with ⟨hb, rfl⟩ | ⟨hi, c, hp, he⟩ | ⟨hi, hp, ha, rfl⟩
  · exact coreStep_of_idle hb
  · rw [coreStep_of_pending (s := { s with env := env }) hi hp]
    unfold execute at he ⊢
    split at he
    · exact exec_withEnv env he
    · cases he; exact congrArg Host.Outcome.next (State.recordError_withEnv s.takePending env _)
  · rw [coreStep_of_auto (s := { s with env := env }) hi hp ha]
    simp only [State.autoStep]
    split <;> rfl

/-- A core step leaves the world around the core as it is. -/
theorem coreStep_env {s s' : State} (h : coreStep s = .next s') : s'.env = s.env := by
  have h' := coreStep_withEnv s.env h
  rw [show ({ s with env := s.env } : State) = s from rfl, h] at h'
  injection h' with h'
  rw [h']

/-- Everything a host write can do (20_memory R52). -/
theorem hostWrite_cases (s : State) (o : Offset) (x : Word) :
    s.hostWrite o x = s
      ∨ (∃ e, s.hostWrite o x = s.recordError e)
      ∨ (s.busy = false ∧ s.hostWrite o x = { s with pending := some x })
      ∨ s.hostWrite o x = { s with opa := x } ∨ s.hostWrite o x = { s with opb := x }
      ∨ s.hostWrite o x = { s with opc := x } ∨ (∃ j : Fin 16, s.hostWrite o x = { s with m := s.m.set j x })
      ∨ ∃ i : Fin 8, s.active = false ∧ s.hostWrite o x = { s with h := s.h.set i x } := by
  unfold State.hostWrite
  cases hb : s.busy with
  | true => exact .inr (.inl ⟨_, rfl⟩)
  | false =>
    simp only [Bool.false_eq_true, if_false]
    cases registerAt o with
    | cmd =>
      simp only [State.writeRegister, State.cmdWrite]
      split
      · exact .inl rfl
      · exact .inr (.inr (.inl ⟨trivial, rfl⟩))
    | opa => exact .inr (.inr (.inr (.inl rfl)))
    | opb => exact .inr (.inr (.inr (.inr (.inl rfl))))
    | opc => exact .inr (.inr (.inr (.inr (.inr (.inl rfl)))))
    | m j => exact .inr (.inr (.inr (.inr (.inr (.inr (.inl ⟨j, rfl⟩))))))
    | h i =>
      simp only [State.writeRegister, State.hWrite]
      split
      · exact .inr (.inl ⟨_, rfl⟩)
      · exact .inr (.inr (.inr (.inr (.inr (.inr (.inr ⟨i, by simp_all, rfl⟩))))))
    | status => exact .inl rfl
    | result => exact .inl rfl
    | unmapped => exact .inl rfl
    | v i => exact .inl rfl
    | s j => exact .inl rfl

/-- A host read changes only what the host has been told (20_memory R53). -/
theorem hostRead_frame (s : State) (o : Offset) : ∃ env', s.hostRead o = { s with env := env' } := by
  unfold State.hostRead
  split <;> exact ⟨_, rfl⟩

/-- Everything a host's turn can do. -/
theorem hostTurn_cases (s : State) :
    s.hostTurn = s ∨ (∃ rest, s.hostTurn = s.nextAccess rest)
      ∨ (∃ rest o x, s.hostTurn = (s.nextAccess rest).hostWrite o x)
      ∨ ∃ rest o, s.hostTurn = (s.nextAccess rest).hostRead o := by
  unfold State.hostTurn
  split
  · exact .inl rfl
  · exact .inr (.inr (.inl ⟨_, _, _, rfl⟩))
  · exact .inr (.inr (.inr ⟨_, _, rfl⟩))
  · split
    · exact .inl rfl
    · exact .inr (.inl ⟨_, rfl⟩)

/-- Everything a step can do: a core step, a host's turn or a reset, after the turn is taken off the list, if there is one. -/
theorem step_cases {s s' : State} (h : step s = .next s') :
    (coreStep s = .next s' ∧ s.env.turns = [] ∧ s.busy = true)
      ∨ (s' = s.hostTurn ∧ s.env.turns = [] ∧ s.busy = false)
      ∨ (∃ rest, s.env.turns = .core :: rest ∧ coreStep (s.nextTurn rest) = .next s')
      ∨ (∃ rest, s.env.turns = .host :: rest ∧ s' = (s.nextTurn rest).hostTurn)
      ∨ ∃ rest, s.env.turns = .reset :: rest ∧ s' = (s.nextTurn rest).resetCore := by
  unfold step takeTurn at h
  split at h
  · exact .inr (.inr (.inl ⟨_, ‹_›, h⟩))
  · cases h; exact .inr (.inr (.inr (.inl ⟨_, ‹_›, rfl⟩)))
  · cases h; exact .inr (.inr (.inr (.inr ⟨_, ‹_›, rfl⟩)))
  · cases hb : s.busy with
    | true => rw [hb] at h; exact .inl ⟨h, ‹_›, rfl⟩
    | false => rw [hb] at h; cases h; exact .inr (.inl ⟨rfl, ‹_›, rfl⟩)

end Sys2Proof.Machine
end

