-- ==== Sys2Proof/Laws/PerInstr.lean ====
section
/-! SUPPORT. For each command: its word holds its OPCODE and no bit outside its format's allowed mask (30_encoding R82, R85). -/

namespace Sys2Proof.Laws.FieldsFit

/-- The word of `i` has the OPCODE of its row and is well-formed for its format (30_encoding R82). -/
def Statement (i : Instr) : Prop :=
  opcodeField (encode i) = i.mnemonic.opcode ∧ i.mnemonic.format.wordWellFormed (encode i) = true

theorem nop : Statement .nop := ⟨by decide, by decide⟩
theorem add : Statement .add := ⟨by decide, by decide⟩
theorem and : Statement .and := ⟨by decide, by decide⟩
theorem or : Statement .or := ⟨by decide, by decide⟩
theorem xor : Statement .xor := ⟨by decide, by decide⟩
theorem not : Statement .not := ⟨by decide, by decide⟩
theorem rotr (n : BitVec 5) : Statement (.rotr n) := ⟨by revert n; decide, by revert n; decide⟩
theorem rotl (n : BitVec 5) : Statement (.rotl n) := ⟨by revert n; decide, by revert n; decide⟩
theorem shr (n : BitVec 5) : Statement (.shr n) := ⟨by revert n; decide, by revert n; decide⟩
theorem ch : Statement .ch := ⟨by decide, by decide⟩
theorem maj : Statement .maj := ⟨by decide, by decide⟩
theorem parity : Statement .parity := ⟨by decide, by decide⟩
theorem bsig0 : Statement .bsig0 := ⟨by decide, by decide⟩
theorem bsig1 : Statement .bsig1 := ⟨by decide, by decide⟩
theorem ssig0 : Statement .ssig0 := ⟨by decide, by decide⟩
theorem ssig1 : Statement .ssig1 := ⟨by decide, by decide⟩
theorem init (var : BitVec 3) : Statement (.init var) := ⟨by revert var; decide, by revert var; decide⟩
theorem block : Statement .block := ⟨by decide, by decide⟩
theorem beginBlock : Statement .beginBlock := ⟨by decide, by decide⟩
theorem round : Statement .round := ⟨by decide, by decide⟩
theorem endBlock : Statement .endBlock := ⟨by decide, by decide⟩
theorem sreset : Statement .sreset := ⟨by decide, by decide⟩
theorem clrerr : Statement .clrerr := ⟨by decide, by decide⟩

end Sys2Proof.Laws.FieldsFit
end

