-- ==== Sys2Proof/Tests/Slice0.lean ====
section
/-! SUPPORT. The model's own tests, their values from spec/95_test_vectors.md and the rules' examples, and the witnesses of
the statements' hypotheses. -/

namespace Sys2Proof.Tests

open Sys2Proof.Machine Sys2Proof.Claims

-- ## Helpers

/-- The state an outcome goes on with. -/
def nextOf : Host.Outcome State Fault Refusal → Option State
  | .next s => some s
  | .fault _ => none
  | .refused _ => none

/-- Reset, with the three operands written. -/
def operands (a b c : Word) : State := { State.reset with opa := a, opb := b, opc := c }

/-- The RESULT of a command on operands. -/
def resultOf (i : Instr) (a b c : Word) : Option Word := (nextOf (exec i (operands a b c))).map State.result

/-- Reset, with a command word latched. -/
def latched (c : Word) : State := { State.reset with pending := some c }

/-- A command word latched in a state. -/
def pendingIn (s : State) (c : Word) : State := { s with pending := some c }

/-- After a successful INIT, with the padded block of "abc" in M (95_test_vectors section 2.4). -/
def ready (var : BitVec 3) : State :=
  { State.reset.selectVariant var with m := #v[0x61626380, 0, 0, 0, 0, 0, 0, 0, 0, 0, 0, 0, 0, 0, 0, 0x18] }

/-- In the block of `ready`, at round counter `t`. -/
def inBlock (var : BitVec 3) (t : BitVec 7) : State := { (ready var).beginStep with t := t }

/-- After INIT SHA256, with error code 1 recorded. -/
def inError : State := (ready 2).recordError .illegalOpcode

/-- A core busy with a BLOCK. -/
def running : State := { inBlock 2 0 with auto := true }

/-- A state no run reaches: a block active with no variant selected. -/
def broken : State := { latched 0 with active := true }

/-- A state with a list of turns. -/
def withTurns (s : State) (l : List Turn) : State := { s with env := { s.env with turns := l } }

/-- A state with a host program. -/
def withProgram (s : State) (l : List HostOp) : State := { s with env := { s.env with program := l } }

-- ## Decoding, word by word, from the patterns of 30_encoding R82 and R85

theorem test_decode_nop : decode 0b00000000000000000000000000000000 = .command .nop := by decide
theorem test_decode_add : decode 0b00000000000000000000000000000001 = .command .add := by decide
theorem test_decode_and : decode 0b00000000000000000000000000000010 = .command .and := by decide
theorem test_decode_or : decode 0b00000000000000000000000000000011 = .command .or := by decide
theorem test_decode_xor : decode 0b00000000000000000000000000000100 = .command .xor := by decide
theorem test_decode_not : decode 0b00000000000000000000000000000101 = .command .not := by decide
theorem test_decode_rotr : decode 0b00000000000000000000011100000110 = .command (.rotr 7) := by decide
theorem test_decode_rotl : decode 0b00000000000000000001111100000111 = .command (.rotl 31) := by decide
theorem test_decode_shr : decode 0b00000000000000000000001100001000 = .command (.shr 3) := by decide
theorem test_decode_ch : decode 0b00000000000000000000000000010000 = .command .ch := by decide
theorem test_decode_maj : decode 0b00000000000000000000000000010001 = .command .maj := by decide
theorem test_decode_parity : decode 0b00000000000000000000000000010010 = .command .parity := by decide
theorem test_decode_bsig0 : decode 0b00000000000000000000000000010011 = .command .bsig0 := by decide
theorem test_decode_bsig1 : decode 0b00000000000000000000000000010100 = .command .bsig1 := by decide
theorem test_decode_ssig0 : decode 0b00000000000000000000000000010101 = .command .ssig0 := by decide
theorem test_decode_ssig1 : decode 0b00000000000000000000000000010110 = .command .ssig1 := by decide
theorem test_decode_init : decode 0b00000000000000110000000000100000 = .command (.init 3) := by decide
theorem test_decode_block : decode 0b00000000000000000000000000100001 = .command .block := by decide
theorem test_decode_begin : decode 0b00000000000000000000000000100010 = .command .beginBlock := by decide
theorem test_decode_round : decode 0b00000000000000000000000000100011 = .command .round := by decide
theorem test_decode_end : decode 0b00000000000000000000000000100100 = .command .endBlock := by decide
theorem test_decode_sreset : decode 0b00000000000000000000000000110000 = .command .sreset := by decide
theorem test_decode_clrerr : decode 0b00000000000000000000000000110001 = .command .clrerr := by decide

/-- 95_test_vectors E1, E2, E6. -/
theorem test_decode_illegal :
    [0x00000009, 0x000000FF, 0x80000009].map decode = List.replicate 3 (.error .illegalOpcode) := by decide

/-- 95_test_vectors E3, E4, E5, E7, E26. -/
theorem test_decode_reserved :
    [0x80000001, 0x00002006, 0x00000120, 0x80030020, 0x00010030].map decode = List.replicate 5 (.error .reservedBits) := by decide

theorem test_decode_table_word : decodeTableWord 32 0x00020020 = some (.init 2) ∧ decodeTableWord 32 0x25 = none := by decide

-- ## Well-formedness: each check refuses an ill-formed term (30_encoding R82, R95, R97; 20_memory R63)

theorem test_wf_word_refuses_reserved_bit : Format.wordWellFormed .s 0x00002006 = false := by decide
theorem test_wf_refuses_wide_shift : (AsmLine.mk .rotr (some (.number 32))).wellFormed = false := by decide
theorem test_wf_refuses_wide_variant : (AsmLine.mk .init (some (.number 8))).wellFormed = false := by decide
theorem test_wf_refuses_operand_on_format_n : (AsmLine.mk .add (some (.number 0))).wellFormed = false := by decide
theorem test_wf_refuses_missing_operand :
    (AsmLine.mk .shr none).wellFormed = false ∧ (AsmLine.mk .init none).wellFormed = false := by decide
theorem test_wf_refuses_name_on_format_s : (AsmLine.mk .shr (some (.name .sha1))).wellFormed = false := by decide
theorem test_wf_refuses_misaligned_offset : (HostStatement.rd 2).wellFormed = false := by decide
theorem test_wf_refuses_offset_past_the_window : (HostStatement.wr 0x100 0).wellFormed = false := by decide
theorem test_wf_refuses_wide_value : (HostStatement.wr 0x08 (2 ^ 32)).wellFormed = false := by decide
theorem test_wf_refuses_bad_command : (HostStatement.cmd ⟨.rotl, some (.number 32)⟩).wellFormed = false := by decide

/-- 30_encoding R95: `ROTR 7` is 0x00000706, `INIT SHA256` is 0x00020020. -/
theorem test_assemble_examples :
    (AsmLine.mk .rotr (some (.number 7))).assemble.map encode = some 0x00000706
      ∧ (AsmLine.mk .init (some (.name .sha256))).assemble.map encode = some 0x00020020 := by decide

/-- 30_encoding R97: `CMD ADD` is `WR 0x00, 0x00000001`. -/
theorem test_lower_cmd : (HostStatement.cmd ⟨.add, none⟩).lower = some (.write 0 0x00000001) := by decide

-- ## Word ALU (95_test_vectors section 2.2)

theorem test_add : resultOf .add 0x6A09E667 0xBB67AE85 0 = some 0x257194EC := by decide
theorem test_add_wraps : resultOf .add 0xFFFFFFFF 0x00000001 0 = some 0 := by decide
theorem test_and : resultOf .and 0xF0F0F0F0 0x0FF00FF0 0 = some 0x00F000F0 := by decide
theorem test_or : resultOf .or 0xF0F0F0F0 0x0FF00FF0 0 = some 0xFFF0FFF0 := by decide
theorem test_xor : resultOf .xor 0xF0F0F0F0 0x0FF00FF0 0 = some 0xFF00FF00 := by decide
theorem test_not_ignores_opb : resultOf .not 0x12345678 0x9ABCDEF0 0 = some 0xEDCBA987 := by decide
theorem test_rotr_31 : resultOf (.rotr 31) 0x12345678 0 0 = some 0x2468ACF0 := by decide
theorem test_rotr_0 : resultOf (.rotr 0) 0x12345678 0 0 = some 0x12345678 := by decide
theorem test_rotl_5 : resultOf (.rotl 5) 0x67452301 0 0 = some 0xE8A4602C := by decide
theorem test_rotl_30 : resultOf (.rotl 30) 0xEFCDAB89 0 0 = some 0x7BF36AE2 := by decide
theorem test_shr_4 : resultOf (.shr 4) 0x12345678 0 0 = some 0x01234567 := by decide
theorem test_shr_31 : resultOf (.shr 31) 0xFFFFFFFF 0 0 = some 1 := by decide

-- ## Function units (95_test_vectors section 2.3)

theorem test_ch : resultOf .ch 0xFFFF0000 0x12345678 0x9ABCDEF0 = some 0x1234DEF0 := by decide
theorem test_maj : resultOf .maj 0xFFFF0000 0x12345678 0x9ABCDEF0 = some 0x9ABC5670 := by decide
theorem test_parity : resultOf .parity 0xFFFF0000 0x12345678 0x9ABCDEF0 = some 0x77778888 := by decide
theorem test_bsig0 : resultOf .bsig0 0x6A09E667 0 0 = some 0xCE20B47E := by decide
theorem test_bsig1 : resultOf .bsig1 0x510E527F 0 0 = some 0x3587272B := by decide
theorem test_ssig0 : resultOf .ssig0 0x61626380 0 0 = some 0x940E90EF := by decide
theorem test_ssig0_all_ones : resultOf .ssig0 0xFFFFFFFF 0 0 = some 0x1FFFFFFF := by decide
theorem test_ssig1 : resultOf .ssig1 0x61626380 0 0 = some 0x7DA86405 := by decide
theorem test_ssig1_all_ones : resultOf .ssig1 0xFFFFFFFF 0 0 = some 0x003FFFFF := by decide

-- ## Compression (95_test_vectors sections 2.5 and 2.7; the rules' examples)

theorem test_init_status :
    (nextOf (exec (.init 0) State.reset)).map State.statusWord = some 0x00005004
      ∧ (nextOf (exec (.init 1) State.reset)).map State.statusWord = some 0x00007104
      ∧ (nextOf (exec (.init 2) State.reset)).map State.statusWord = some 0x00008204 := by decide

/-- E11. -/
theorem test_init_bad_variant : (nextOf (exec (.init 5) (ready 2))).map State.statusWord = some 0x00008236 := by decide

theorem test_begin_status : (nextOf (exec .beginBlock (ready 2))).map State.statusWord = some 0x0000820C := by decide

/-- E16. -/
theorem test_begin_twice : (nextOf (exec .beginBlock (inBlock 2 0))).map State.statusWord = some 0x0000825E := by decide

/-- E13. -/
theorem test_block_without_variant : (nextOf (exec .block State.reset)).map State.statusWord = some 0x00000042 := by decide

theorem test_block_first_step_is_busy : (nextOf (exec .block (ready 0))).map State.statusWord = some 0x0000500D := by decide

/-- 42_compression R171, example. -/
theorem test_round_sha256 :
    (nextOf (exec .round (inBlock 2 0))).map (fun s => (s.v, s.s[15], s.t))
      = some (#v[0x5D6AEBCD, 0x6A09E667, 0xBB67AE85, 0x3C6EF372, 0xFA2A4622, 0x510E527F, 0x9B05688C, 0x1F83D9AB], 0x61626380, 1) := by
  decide

/-- 95_test_vectors section 2.5.3, SHA-1, round 0. -/
theorem test_round_sha1 :
    (nextOf (exec .round (inBlock 0 0))).map (fun s => (s.v, s.s[15], s.t))
      = some (#v[0x0116FC33, 0x67452301, 0x7BF36AE2, 0x98BADCFE, 0x10325476, 0, 0, 0], 0xC2C4C700, 1) := by
  decide

/-- 42_compression R172, example, from the working variables of program P2. -/
theorem test_end_sha256 :
    (nextOf (exec .endBlock { inBlock 2 64 with
        v := #v[0x506E3058, 0xD39A2165, 0x04D24D6C, 0xB85E2CE9, 0x5EF50F24, 0xFB121210, 0x948D25B6, 0x961F4894] })).map
      (fun s => (s.h, s.statusWord))
      = some (#v[0xBA7816BF, 0x8F01CFEA, 0x414140DE, 0x5DAE2223, 0xB00361A3, 0x96177A9C, 0xB410FF61, 0xF20015AD], 0x00008204) := by
  decide

/-- E18. -/
theorem test_end_too_early : (nextOf (exec .endBlock (inBlock 2 0))).map State.statusWord = some 0x0000825E := by decide

-- ## Control, and a step of the whole system

theorem test_nop : nextOf (exec .nop inError) = some inError := by decide
theorem test_sreset : nextOf (exec .sreset inError) = some State.reset := by decide

/-- E24's clearing, from `INIT SHA256` with code 1 recorded. -/
theorem test_clrerr : (nextOf (exec .clrerr inError)).map State.statusWord = some 0x00008204 := by decide

theorem test_step_runs_the_placed_word :
    (nextOf (step (State.reset.withFetchWord 32 0x00020020))).map State.statusWord = some 0x00008204 := by decide

/-- E1. -/
theorem test_step_records_illegal_opcode : (nextOf (step (latched 0x00000009))).map State.statusWord = some 0x00000012 := by decide

theorem test_step_idles_at_reset : nextOf (step State.reset) = some State.reset := by decide

-- ## The register window (95_test_vectors sections 2.7 and 2.8)

/-- E19: a write to H[0] while a block is active. -/
theorem test_write_h_while_active :
    ((inBlock 2 0).hostWrite 0x20 0xDEADBEEF).statusWord = 0x0000825E ∧ ((inBlock 2 0).hostWrite 0x20 0xDEADBEEF).h[0] = 0x6A09E667 := by
  decide

/-- E21: a write to M[0] while a BLOCK is latched. -/
theorem test_write_while_busy :
    ((pendingIn (ready 2) 0x21).hostWrite 0x10 0).errcode = 6 ∧ ((pendingIn (ready 2) 0x21).hostWrite 0x10 0).m[0] = 0x61626380 := by
  decide

/-- E22 and E23: while an error is recorded the write to CMD is ignored. -/
theorem test_cmd_ignored_in_error : inError.hostWrite 0 0x20 = inError ∧ inError.hostWrite 0 0x80000031 = inError := by decide

theorem test_writes_to_read_only_words_change_nothing :
    [0x01, 0x05, 0x06, 0x0F, 0x28, 0x30].map (fun o => (ready 2).hostWrite o 1) = List.replicate 6 (ready 2) := by decide

theorem test_write_then_read_m15 : (((ready 2).hostWrite 0x1F 7).hostRead 0x1F).env.answers = [7] := by decide

/-- A read while busy is the free value, not the register. -/
theorem test_busy_read_is_free : (running.hostRead 0x02).env.answers = [Config.busyRead 0] := by rfl

-- ## The host's procedure (95_test_vectors section 2.4)

theorem test_pad_zeros : [0, 1, 3, 55, 56, 63, 64, 119, 120].map padZeros = [55, 54, 52, 0, 63, 56, 55, 0, 63] := by decide
theorem test_pad_abc : splitBlocks (pad [0x61, 0x62, 0x63]) = [(ready 2).m] := by decide

/-- The message domain (20_memory R71) and the variants (42_compression R160): no procedure outside them. -/
theorem test_digest_program_domain :
    digestProgram 3 [] = none ∧ (digestProgram 0 []).isSome = true ∧ digestProgram 2 (List.replicate (2 ^ 61) 0) = none := by
  refine ⟨by decide, by decide, ?_⟩
  have h : ¬ 8 * 2 ^ 61 < 2 ^ 64 := by decide
  simp only [digestProgram, inMessageDomain, List.length_replicate, h, decide_false, Bool.and_false, Bool.false_eq_true, if_false]

/-- 20_memory R70: five words of SHA-1 and STATUS, without and with ERR. -/
theorem test_digest_from_answers :
    (digestFromAnswers [0xA9993E36, 0x4706816A, 0xBA3E2571, 0x7850C26C, 0x9CD0D89D, 0x00005004]).map (fun d => d.take 5)
        = some [0xA9, 0x99, 0x3E, 0x36, 0x47]
      ∧ digestFromAnswers [0xA9993E36, 0x4706816A, 0xBA3E2571, 0x7850C26C, 0x9CD0D89D, 0x00005062] = none := by decide

-- ## Witnesses: states and operands that meet the hypotheses of the statements

/-- `LatchedWord`, both clauses, and `ReservedBitsRecordCodeTwo`: a word of each format, without and with a reserved bit. -/
theorem witness_latched_invariants : (latched 0x1F06).Inv ∧ (latched 0x101).Inv ∧ (latched 0x70020).Inv := by decide
theorem witness_latched_words :
    (0x01 : Word).extractLsb' 0 8 = 0x01#8 ∧ (0x01 : Word) &&& ~~~ 0x000000FF = 0 ∧ (0x101 : Word) &&& ~~~ 0x000000FF ≠ 0
      ∧ (0x1F06 : Word) &&& ~~~ maskOf 0x06 = 0 ∧ (0x2006 : Word) &&& ~~~ maskOf 0x06 ≠ 0
      ∧ (0x70020 : Word) &&& ~~~ maskOf 0x20 = 0 ∧ (0x80020 : Word) &&& ~~~ maskOf 0x20 ≠ 0 := by decide

/-- Both ends of each range of `Unassigned`, and an assigned opcode beside each. -/
theorem witness_unassigned : ∀ op ∈ [(0x09 : BitVec 8), 0x0F, 0x17, 0x1F, 0x25, 0x2F, 0x32, 0xFF], Unassigned op := by decide
theorem witness_assigned : ∀ op ∈ [(0x08 : BitVec 8), 0x10, 0x16, 0x20, 0x24, 0x30, 0x31], ¬ Unassigned op := by decide
theorem witness_unassigned_latched : (latched 0xFF).Inv ∧ (latched 0xFF).pending = some 0xFF := by decide

theorem witness_every_word_latched : State.reset.pending = none ∧ State.reset.auto = false ∧ State.reset.err = false ∧ State.reset.Inv := by decide

/-- `FirstErrorInOrderIsRecorded`: BAD_VARIANT, NO_VARIANT, SEQUENCE and no error. -/
theorem witness_bad_variant : BadVariant 0x00030020 ∧ ¬ BadVariant 0x00020020 ∧ (latched 0x00030020).err = false := by decide
theorem witness_no_variant : NoVariant 0x21 (latched 0x21) ∧ ¬ NoVariant 0x22 (pendingIn (inBlock 2 0) 0x22) := by decide
theorem witness_out_of_sequence :
    OutOfSequence 0x24 (latched 0x24) ∧ OutOfSequence 0x22 (pendingIn (inBlock 2 0) 0x22) ∧ (pendingIn (inBlock 2 0) 0x22).Inv := by decide
theorem witness_no_error : ¬ NoVariant 0x00020020 (latched 0x00020020) ∧ ¬ OutOfSequence 0x00020020 (latched 0x00020020) := by decide

theorem witness_step_runs :
    (latched 0x31).Inv ∧ decode 0x31 = .command .clrerr ∧ (latched 0x31).env.turns = []
      ∧ (withTurns (latched 0x31) [.core, .host]).Inv ∧ (withTurns (latched 0x31) [.core, .host]).env.turns = .core :: [.host] := by decide

theorem witness_unit_laws : (operands 0xFFFFFFFF 1 0).opa = 0xFFFFFFFF ∧ (operands 0xFFFFFFFF 1 0).opb = 1 := by decide

theorem witness_operands_only :
    (operands 1 2 3).opa = (inError).opa + 1 ∧ (operands 1 2 3).opa = { running with opa := 1, opb := 2, opc := 3 }.opa
      ∧ (operands 1 2 3).opb = { running with opa := 1, opb := 2, opc := 3 }.opb ∧ (operands 1 2 3).opc = { running with opa := 1, opb := 2, opc := 3 }.opc
      ∧ .rotr 31 ∈ unaryCommands 31 ∧ .add ∈ binaryCommands ∧ .ch ∈ ternaryCommands := by decide

/-- Both cases of `AluAndUnitsLeaveEveryOtherWindowWord`: an unreliable offset while idle, STATUS while busy. -/
theorem witness_window_frame :
    .shr 0 ∈ unaryCommands 0 ++ binaryCommands ++ ternaryCommands ∧ 4 * (0x3F : Offset).toNat ≠ 0x14 ∧ 4 * (0x01 : Offset).toNat ≠ 0x14
      ∧ (ready 2).busy = false ∧ running.busy = true ∧ ¬ Unreliable 0x01
      ∧ nextOf (exec (.shr 0) (ready 2)) = some (ready 2) ∧ nextOf (exec (.shr 0) running) = some running := by decide

/-- The rounds at the ends of the four ranges of 42_compression R144. -/
theorem witness_sha1_ranges :
    [0, 19, 20, 39, 40, 59, 60, 79].map k1
      = [0x5A827999, 0x5A827999, 0x6ED9EBA1, 0x6ED9EBA1, 0x8F1BBCDC, 0x8F1BBCDC, 0xCA62C1D6, 0xCA62C1D6] := by decide

theorem witness_init_bad_variant : 3 ≤ (3 : BitVec 3).toNat ∧ 3 ≤ (7 : BitVec 3).toNat := by decide

/-- The states BEGIN, BLOCK, ROUND and END meet: no variant, block active, no block, first and last round, all rounds done. -/
theorem witness_block_states :
    State.reset.valid = false ∧ (inBlock 0 0).valid = true ∧ (inBlock 0 0).active = true ∧ (ready 0).valid = true ∧ (ready 0).active = false
      ∧ (inBlock 0 79).t.toNat < roundsOf (inBlock 0 79).variant ∧ (inBlock 2 63).t.toNat < roundsOf (inBlock 2 63).variant
      ∧ (inBlock 0 80).t.toNat = roundsOf (inBlock 0 80).variant ∧ (inBlock 1 64).t.toNat = roundsOf (inBlock 1 64).variant
      ∧ (inBlock 1 64).active = true ∧ (inBlock 0 79).t.toNat ≠ roundsOf (inBlock 0 79).variant := by decide

/-- `BlockReplacesTheHashByItsCompression`, `BlockAgreesWithStepMode`, `WindowHoldsTheScheduleAtEveryRound`. -/
theorem witness_block_can_start :
    ∀ var ∈ [(0 : BitVec 3), 1, 2], (ready var).Inv ∧ (ready var).pending = none ∧ (ready var).auto = false ∧ (ready var).err = false
      ∧ (ready var).valid = true ∧ (ready var).active = false := by decide

theorem witness_step_counts :
    (pendingIn (ready 2) 0x21).Inv ∧ (pendingIn (ready 2) 0x21).valid = true
      ∧ (pendingIn (ready 2) 0x21).active = false ∧ (latched 0).Inv
      ∧ ¬ ((0 : Word) = 0x21 ∧ (latched 0).valid = true ∧ (latched 0).active = false) := by decide

/-- `NopChangesNothing`, `AcceptedInError`: idle with and without an error, busy, and a second word of CLRERR's opcode. -/
theorem witness_control_writes :
    inError.busy = false ∧ inError.err = true ∧ (ready 2).busy = false ∧ (ready 2).err = false ∧ running.busy = true
      ∧ (0x131 : Word).extractLsb' 0 8 = 0x31#8 ∧ (0x131 : Word) ≠ 0x31 := by decide

/-- `BusyWriteRecordsSixAndTheCommandRunsOn`: a failing command, and a running BLOCK. -/
theorem witness_busy_write :
    (latched 0x09).busy = true ∧ (nextOf (coreStep ((latched 0x09).hostWrite 2 5))).map State.errcode = some 6
      ∧ (nextOf (coreStep (running.hostWrite 2 5))).map (fun s => (s.errcode, s.t)) = some (6, 1) := by decide

theorem witness_reset_turn : (withTurns running [.reset]).env.turns = .reset :: [] := by decide

/-- The invariants hold of states in every phase, and a step goes on from them. -/
theorem witness_invariants : ∀ s ∈ [ready 1, inError, running, inBlock 0 80], s.Inv ∧ s.CodeRecordable := by decide
theorem witness_running_goes_on : (nextOf (step running)).isSome = true := by decide

/-- `EveryStepKeepsTheBlockInProgress`: a block in progress, and a step that goes on from it. -/
theorem witness_block_in_progress :
    (inBlock 2 0).active = true ∧ BlockInProgress (ready 2).m (inBlock 2 0) ∧ (nextOf (step (inBlock 2 0))).isSome = true := by
  unfold BlockInProgress; decide

theorem witness_broken : ¬ broken.Inv ∧ broken.busy = true ∧ nextOf (coreStep broken) = none := by decide

theorem witness_register_writers :
    (latched 0x05).pending ≠ some 0x30 ∧ (nextOf (coreStep (latched 0x05))).map State.result = some 0xFFFFFFFF
      ∧ (nextOf (coreStep (latched 0x20))).map (fun s => s.h[0]) = some 0x67452301
      ∧ (nextOf (coreStep (pendingIn (ready 0) 0x22))).map (fun s => (s.v[0], s.s[0])) = some (0x67452301, 0x61626380) := by decide

theorem witness_precise :
    (latched 0x09).err = false ∧ (nextOf (coreStep (latched 0x09))).map State.err = some true
      ∧ running.err = false ∧ (running.hostWrite 0x02 5).err = true := by decide

theorem witness_sticky :
    inError.err = true ∧ (nextOf (step inError)).map State.err = some true
      ∧ (nextOf (step (withTurns inError [.reset]))).map State.err = some false
      ∧ (nextOf (step (pendingIn inError 0x31))).map (fun s => (s.err, s.pending)) = some (false, none) := by decide

theorem witness_same_control : SameControl (latched 0x02) { latched 0x02 with opa := 7, h := (ready 2).h, m := (ready 2).m } := by
  decide

/-- `HostReadReturnsTheMappedRegister` and the writes: an offset at each end of each range, busy and not. -/
theorem witness_offsets :
    [0x00, 0x01, 0x02, 0x03, 0x04, 0x05, 0x06, 0x0F].map (fun o : Offset => 4 * o.toNat) = [0x00, 0x04, 0x08, 0x0C, 0x10, 0x14, 0x18, 0x3C]
      ∧ [0x10, 0x1F, 0x20, 0x27, 0x28, 0x2F, 0x30, 0x3F].map (fun o : Offset => 4 * o.toNat) = [0x40, 0x7C, 0x80, 0x9C, 0xA0, 0xBC, 0xC0, 0xFC]
      ∧ running.busy = true ∧ (ready 2).busy = false ∧ inError.busy = false ∧ inError.err = true := by decide

theorem witness_unreliable : Unreliable 0x02 ∧ Unreliable 0x05 ∧ Unreliable 0x10 ∧ Unreliable 0x3F ∧ ¬ Unreliable 0x01 ∧ ¬ Unreliable 0x06 := by
  decide

/-- `WaitEndsWithTheCoreIdle`: a running BLOCK, and an idle core. -/
theorem witness_wait :
    (withProgram running [.wait]).Inv ∧ (withProgram running [.wait]).env.turns = [] ∧ (withProgram running [.wait]).env.program = .wait :: []
      ∧ (withProgram (ready 1) [.wait]).Inv ∧ (withProgram (ready 1) [.wait]).busy = false := by decide

/-- `HostProcedureReturnsTheDigest`: without and with an error recorded, a host turn before a core turn. -/
theorem witness_host_procedure :
    ∃ ops, digestProgram 0 [0x61] = some ops ∧ (withTurns (withProgram State.reset ops) [.host, .core]).Inv
      ∧ (withTurns (withProgram State.reset ops) [.host, .core]).busy = false
      ∧ Turn.reset ∉ (withTurns (withProgram State.reset ops) [.host, .core]).env.turns
      ∧ (withTurns (withProgram State.reset ops) [.host, .core]).env.program = ops
      ∧ (withProgram inError ops).Inv ∧ (withProgram inError ops).busy = false ∧ (withProgram inError ops).err = true :=
  ⟨_, rfl, by decide, rfl, by decide, rfl, by decide, rfl, rfl⟩

theorem witness_short_message : 8 * ([] : List Byte).length < 2 ^ 64 ∧ 8 * [(0x61 : Byte)].length < 2 ^ 64 := by decide

end Sys2Proof.Tests
end

/-! PROOFS. The obligations of 10_state: reset, STATUS, who writes which register, and the five invariants over every step. -/

-- ## The decoder and the encoder

namespace Sys2Proof

/-- 30_encoding R90: the decoder reads back the command of every encoded word, every operand at every value. -/
theorem decode_encode (i : Instr) : decode (encode i) = .command i := by
  cases i with
  | rotr n | rotl n | shr n => revert n; decide
  | init var => revert var; decide
  | _ => rfl

@[simp] theorem Mnemonic.mnemonic_instr (row : Mnemonic) (n : BitVec 5) (var : BitVec 3) :
    (row.instr n var).mnemonic = row := by
  cases row <;> rfl

/-- A word that decodes to a command has its OPCODE and no bit outside its format's mask. -/
theorem opcodeField_of_decode {c : Word} {i : Instr} (h : decode c = .command i) :
    opcodeField c = i.mnemonic.opcode ∧ i.mnemonic.format.wordWellFormed c = true := by
  rcases decode_cases c with ⟨-, he⟩ | ⟨row, hop, ⟨hwf, hc⟩ | ⟨-, he⟩⟩
  · simp [he] at h
  · obtain rfl : row.instr (shamtField c) (variantField c) = i := by simpa [hc] using h
    simpa [hop] using hwf
  · simp [he] at h

/-- A word of format N is its OPCODE and zeros (30_encoding R82). -/
theorem eq_setWidth_opcodeField {c : Word} (h : Format.n.wordWellFormed c = true) :
    c = (opcodeField c).setWidth 32 := by
  have hmask : c &&& ~~~ (0x000000FF : Word) = 0 := by simpa [Format.wordWellFormed, Format.allowedMask] using h
  have hhigh : ∀ i, 8 ≤ i → c.getLsbD i = false := fun i hi => by
    have hbit := congrArg (fun w : Word => w.getLsbD i) hmask
    have hlow : (0x000000FF : Word).getLsbD i = false :=
      Nat.testBit_lt_two_pow (lt_of_lt_of_le (by decide : 255 < 2 ^ 8) (Nat.pow_le_pow_right (by decide) hi))
    by_cases h32 : i < 32
    · simp only [BitVec.getLsbD_and, BitVec.getLsbD_not, h32, hlow] at hbit
      simpa using hbit
    · exact BitVec.getLsbD_of_ge c i (by omega)
  apply BitVec.eq_of_getLsbD_eq
  intro i hi
  by_cases h8 : i < 8
  · simp [opcodeField, hi, h8]
  · simp [opcodeField, h8, hhigh i (by omega)]

/-- The word of a command of format N is determined by the command. -/
theorem eq_opcode_of_decode {c : Word} {i : Instr} (h : decode c = .command i) (hf : i.mnemonic.format = .n) :
    c = i.mnemonic.opcode.setWidth 32 := by
  obtain ⟨hop, hwf⟩ := opcodeField_of_decode h
  rw [hf] at hwf
  rw [← hop]
  exact eq_setWidth_opcodeField hwf

end Sys2Proof

namespace Sys2Proof.Machine

-- ## The STATUS word (10_state R31)
-- The word is a chain of appends whose widths are sums: `simp` may not add them up, or the lemmas on `++` no longer match.

theorem State.statusWord_busy (s : State) : s.statusWord.getLsbD 0 = s.busy :=
  BitVec.getLsbD_append.trans (by simp)

theorem State.statusWord_err (s : State) : s.statusWord.getLsbD 1 = s.err :=
  BitVec.getLsbD_append.trans (by simp [-Nat.reduceAdd, -BitVec.getLsbD_eq_getElem, BitVec.getLsbD_append])

theorem State.statusWord_valid (s : State) : s.statusWord.getLsbD 2 = s.valid :=
  BitVec.getLsbD_append.trans (by simp [-Nat.reduceAdd, -BitVec.getLsbD_eq_getElem, BitVec.getLsbD_append])

theorem State.statusWord_active (s : State) : s.statusWord.getLsbD 3 = s.active :=
  BitVec.getLsbD_append.trans (by simp [-Nat.reduceAdd, -BitVec.getLsbD_eq_getElem, BitVec.getLsbD_append])

theorem State.statusWord_bit_eleven (s : State) : s.statusWord.getLsbD 11 = false :=
  BitVec.getLsbD_append.trans (by simp [-Nat.reduceAdd, -BitVec.getLsbD_eq_getElem, BitVec.getLsbD_append])

theorem State.statusWord_errcode (s : State) : s.statusWord.extractLsb' 4 4 = s.errcode :=
  (BitVec.extractLsb'_append_eq_of_le (by decide)).trans
    (by simp [-Nat.reduceAdd, BitVec.extractLsb'_append_eq_of_le, BitVec.extractLsb'_append_eq_of_add_le])

theorem State.statusWord_variant (s : State) : s.statusWord.extractLsb' 8 3 = s.variant :=
  (BitVec.extractLsb'_append_eq_of_le (by decide)).trans
    (by simp [-Nat.reduceAdd, BitVec.extractLsb'_append_eq_of_le, BitVec.extractLsb'_append_eq_of_add_le])

theorem State.statusWord_dwords (s : State) : s.statusWord.extractLsb' 12 4 = s.dwords :=
  (BitVec.extractLsb'_append_eq_of_le (by decide)).trans
    (by simp [-Nat.reduceAdd, BitVec.extractLsb'_append_eq_of_le, BitVec.extractLsb'_append_eq_of_add_le])

theorem State.statusWord_t (s : State) : s.statusWord.extractLsb' 16 7 = s.t :=
  (BitVec.extractLsb'_append_eq_of_le (by decide)).trans
    (by simp [-Nat.reduceAdd, BitVec.extractLsb'_append_eq_of_le, BitVec.extractLsb'_append_eq_of_add_le])

theorem State.statusWord_high_bits (s : State) : s.statusWord.extractLsb' 23 9 = 0 :=
  (BitVec.extractLsb'_append_eq_of_le (by decide)).trans
    (by simp [-Nat.reduceAdd, BitVec.extractLsb'_append_eq_of_le])

-- ## What a command can do

/-- The ALU and function-unit commands: OPCODEs 0x01 to 0x08 and 0x10 to 0x16 (30_encoding R85). -/
abbrev AluOrUnit (i : Instr) : Prop :=
  (1 ≤ i.mnemonic.opcode.toNat ∧ i.mnemonic.opcode.toNat ≤ 8)
    ∨ (0x10 ≤ i.mnemonic.opcode.toNat ∧ i.mnemonic.opcode.toNat ≤ 0x16)

/-- `Failure s i e`: the command `i` fails in `s` with the error `e`, in the order of the checks (60_exceptions R200, R203). -/
inductive Failure (s : State) : Instr → CmdError → Prop
  | badVariant (var : BitVec 3) (hvar : supported var = false) : Failure s (.init var) .badVariant
  | noVariant (i : Instr) (hi : i = .block ∨ i = .beginBlock) (hv : s.valid = false) : Failure s i .noVariant
  | blockActive (i : Instr) (hi : i = .block ∨ i = .beginBlock) (hv : s.valid = true) (ha : s.active = true) :
      Failure s i .sequence
  | round (h : s.active = false ∨ s.t.toNat = s.rounds) : Failure s .round .sequence
  | endBlock (h : s.active = false ∨ s.t.toNat ≠ s.rounds) : Failure s .endBlock .sequence

/-- `Effect s i s'`: performing the command `i` may turn `s` into `s'`. One case per kind of effect, with the guards under which the
command does not fail; `exec_effect` ties it to `exec`. -/
inductive Effect (s : State) : Instr → State → Prop
  | nop : Effect s .nop s
  | result (i : Instr) (x : Word) (hi : AluOrUnit i) : Effect s i (s.setResult x)
  | error (i : Instr) (e : CmdError) (hf : Failure s i e) : Effect s i (s.recordError e)
  | init (var : BitVec 3) (hvar : supported var = true) : Effect s (.init var) (s.selectVariant var)
  | block (hv : s.valid = true) (ha : s.active = false) : Effect s .block { s.beginStep with auto := true }
  | beginBlock (hv : s.valid = true) (ha : s.active = false) : Effect s .beginBlock s.beginStep
  | round (ha : s.active = true) (ht : s.t.toNat ≠ s.rounds) : Effect s .round s.roundStep
  | endBlock (ha : s.active = true) (ht : s.t.toNat = s.rounds) : Effect s .endBlock s.endStep
  | sreset : Effect s .sreset s.resetCore
  | clrerr : Effect s .clrerr s.clearError

/-- Everything a command can do. -/
theorem exec_effect {i : Instr} {s s' : State} (h : exec i s = .next s') : Effect s i s' := by
  cases i
  case nop => cases h; exact .nop
  case sreset => cases h; exact .sreset
  case clrerr => cases h; exact .clrerr
  case init var =>
    simp only [exec, execInit] at h
    split at h <;> cases h
    · exact .init var ‹_›
    · exact .error _ _ (.badVariant var (by simp_all))
  case block =>
    simp only [exec, execBlock] at h
    (repeat' split at h) <;> cases h
    · exact .error _ _ (.noVariant _ (.inl rfl) ‹_›)
    · exact .error _ _ (.blockActive _ (.inl rfl) (by simp_all) ‹_›)
    · exact .block (by simp_all) (by simp_all)
  case beginBlock =>
    simp only [exec, execBegin] at h
    (repeat' split at h) <;> cases h
    · exact .error _ _ (.noVariant _ (.inr rfl) ‹_›)
    · exact .error _ _ (.blockActive _ (.inr rfl) (by simp_all) ‹_›)
    · exact .beginBlock (by simp_all) (by simp_all)
  case round =>
    simp only [exec, execRound] at h
    (repeat' split at h) <;> cases h
    · exact .error _ _ (.round (.inl ‹_›))
    · exact .error _ _ (.round (.inr ‹_›))
    · exact .round (by simp_all) ‹_›
  case endBlock =>
    simp only [exec, execEnd] at h
    split at h <;> cases h
    · exact .error _ _ (.endBlock ‹_›)
    · exact .endBlock (by simp_all) (by simp_all)
  all_goals (cases h; exact .result _ _ (by simp [AluOrUnit, Instr.mnemonic, Mnemonic.opcode]))

/-- Everything a core step can do: nothing, a command, a decode error, or a step of a running BLOCK. -/
theorem coreStep_effect {s s' : State} (h : coreStep s = .next s') :
    (s.busy = false ∧ s' = s)
      ∨ (s.Inv ∧ ∃ c, s.pending = some c ∧
          ((∃ i, decode c = .command i ∧ Effect s.takePending i s') ∨ ∃ e, decode c = .error e ∧ s' = s.takePending.recordError (.ofDecode e)))
      ∨ (s.Inv ∧ s.pending = none ∧ s.auto = true ∧ s' = s.autoStep) := by
  rcases coreStep_cases h with hidle | ⟨hi, c, hp, he⟩ | hauto
  · exact .inl hidle
  · refine .inr (.inl ⟨hi, c, hp, ?_⟩)
    unfold execute at he
    split at he
    · exact .inl ⟨_, ‹_›, exec_effect he⟩
    · cases he; exact .inr ⟨_, ‹_›, rfl⟩
  · exact .inr (.inr hauto)

/-- The core step of a latched word that is a command. -/
theorem coreStep_of_command {s : State} {c : Word} {i : Instr} (hi : s.Inv) (hp : s.pending = some c)
    (hd : decode c = .command i) : coreStep s = exec i s.takePending := by
  simp only [coreStep_of_pending hi hp, execute, hd]

theorem step_of_coreTurn {s : State} {rest : List Turn} (ht : s.env.turns = .core :: rest) :
    step s = coreStep (s.nextTurn rest) := by
  simp only [step, takeTurn, ht]

theorem step_of_noTurns {s : State} (ht : s.env.turns = []) (hb : s.busy = true) : step s = coreStep s := by
  simp only [step, takeTurn, ht, hb, if_true]

theorem State.withFetchWord_encode (s : State) (i : Instr) :
    s.withFetchWord 32 (encode i).toNat = s.placeCommand (encode i) := by
  have hlt : (encode i).toNat < 2 ^ 32 := (encode i).isLt
  rw [State.withFetchWord, Nat.mod_eq_of_lt hlt, BitVec.ofNat_toNat, BitVec.setWidth_eq]

-- ## The five invariants (10_state R37), operation by operation

theorem roundCount_le (var : BitVec 3) : roundCount var ≤ 80 := by
  unfold roundCount; split <;> decide

/-- The round counter does not wrap: it stays below N + 1 ≤ 81. -/
theorem State.roundStep_t_toNat {s : State} (ht : s.t.toNat < s.rounds) : s.roundStep.t.toNat = s.t.toNat + 1 := by
  have hN : s.rounds ≤ 80 := roundCount_le s.variant
  rw [State.roundStep_t, BitVec.toNat_add]
  exact Nat.mod_eq_of_lt (show s.t.toNat + 1 < 2 ^ 7 by omega)

theorem supported_iff {var : BitVec 3} : supported var = true ↔ var = 0 ∨ var = 1 ∨ var = 2 := by
  simp [supported, or_assoc]

theorem CmdError.code_ne_zero (e : CmdError) : e.code ≠ 0 := by cases e <;> decide

theorem State.reset_inv : State.reset.Inv := by decide

section
variable {s : State} (hi : s.Inv)
include hi

/-- A latched word excludes a running BLOCK. -/
theorem State.auto_eq_false_of_pending {c : Word} (hp : s.pending = some c) : s.auto = false := by
  obtain ⟨-, hauto, -⟩ := hi
  cases ha : s.auto with
  | false => rfl
  | true => obtain ⟨-, hnone⟩ := hauto ha; simp [hp] at hnone

theorem State.active_of_auto (ha : s.auto = true) : s.active = true := by
  obtain ⟨-, hauto, -⟩ := hi
  exact (hauto ha).1

theorem State.t_le_rounds_of_active (ha : s.active = true) : s.t.toNat ≤ s.rounds := by
  obtain ⟨-, -, -, ⟨-, htn⟩, -⟩ := hi
  exact htn ha

theorem State.takePending_inv : s.takePending.Inv := by
  obtain ⟨hav, hauto, hrest⟩ := hi
  exact ⟨hav, fun ha => ⟨(hauto ha).1, rfl⟩, hrest⟩

/-- Recording an error sets a code other than 0, or keeps one. -/
theorem State.recordError_inv (e : CmdError) : (s.recordError e).Inv := by
  obtain ⟨hav, hauto, hvar, ht, herr⟩ := hi
  rw [State.recordError_eq]
  refine ⟨hav, hauto, hvar, ht, ?_⟩
  cases he : s.err with
  | false => simpa using e.code_ne_zero
  | true => simpa [he] using herr

theorem State.clearError_inv : s.clearError.Inv := by
  obtain ⟨hav, hauto, hvar, ht, -⟩ := hi
  exact ⟨hav, hauto, hvar, ht, by simp⟩

/-- INIT of a supported code; no BLOCK may be running. -/
theorem State.selectVariant_inv (ha : s.auto = false) {var : BitVec 3} (hvar : supported var = true) :
    (s.selectVariant var).Inv := by
  obtain ⟨-, -, -, -, herr⟩ := hi
  exact ⟨by simp, by simp [ha], fun _ => supported_iff.mp hvar, by simp, herr⟩

/-- A block begins, alone (BEGIN) or with AUTO (BLOCK). -/
theorem State.beginStep_inv (hv : s.valid = true) (hp : s.pending = none) (auto : Bool) :
    State.Inv { s.beginStep with auto := auto } := by
  obtain ⟨-, -, hvar, -, herr⟩ := hi
  exact ⟨fun _ => hv, fun _ => ⟨rfl, hp⟩, hvar, by simp, herr⟩

theorem State.roundStep_inv (ha : s.active = true) (ht : s.t.toNat < s.rounds) : s.roundStep.Inv := by
  obtain ⟨hav, hauto, hvar, -, herr⟩ := hi
  refine ⟨hav, hauto, hvar, ⟨fun hn => ?_, fun _ => ?_⟩, herr⟩
  · simp [ha] at hn
  · rw [State.roundStep_t_toNat ht]; exact ht

/-- A block ends; AUTO ends with it. -/
theorem State.endStep_inv : State.Inv { s.endStep with auto := false } := by
  obtain ⟨-, -, hvar, -, herr⟩ := hi
  exact ⟨by simp, by simp, hvar, by simp, herr⟩

/-- Latching a word while the core is idle. -/
theorem State.latch_inv (hb : s.busy = false) (c : Word) : State.Inv { s with pending := some c } := by
  obtain ⟨hav, -, hrest⟩ := hi
  have ha : s.auto = false := by simp_all [State.busy]
  exact ⟨hav, by simp [ha], hrest⟩

/-- Latching a word in place of whatever the core was doing, AUTO cleared (log entry 2). -/
theorem State.placeCommand_inv (c : Word) : (s.placeCommand c).Inv := by
  obtain ⟨hav, -, hrest⟩ := hi
  exact ⟨hav, by simp [State.placeCommand], hrest⟩

-- ## The five invariants, agent by agent

theorem Effect.keeps_inv {i : Instr} {s' : State} (h : Effect s i s') (hp : s.pending = none) (ha : s.auto = false) :
    s'.Inv := by
  cases h with
  | nop => exact hi
  | result i x _ => exact hi
  | error i e _ => exact State.recordError_inv hi e
  | init var hvar => exact State.selectVariant_inv hi ha hvar
  | block hv _ => exact State.beginStep_inv hi hv hp true
  | beginBlock hv _ => exact State.beginStep_inv hi hv hp s.auto
  | round hact ht =>
    exact State.roundStep_inv hi hact (lt_of_le_of_ne (State.t_le_rounds_of_active hi hact) ht)
  | endBlock _ _ =>
    have hend := State.endStep_inv hi
    rwa [← ha] at hend
  | sreset => exact State.reset_inv
  | clrerr => exact State.clearError_inv hi

theorem State.autoStep_inv (ha : s.auto = true) : s.autoStep.Inv := by
  unfold State.autoStep
  split
  · exact State.roundStep_inv hi (State.active_of_auto hi ha) ‹_›
  · exact State.endStep_inv hi

theorem coreStep_keeps_inv {s' : State} (h : coreStep s = .next s') : s'.Inv := by
  rcases coreStep_effect h with ⟨-, rfl⟩ | ⟨-, c, hp, ⟨i, -, heff⟩ | ⟨e, -, rfl⟩⟩ | ⟨-, -, ha, rfl⟩
  · exact hi
  · have ha := State.auto_eq_false_of_pending hi hp
    exact heff.keeps_inv (State.takePending_inv hi) rfl ha
  · exact State.recordError_inv (State.takePending_inv hi) _
  · exact State.autoStep_inv hi ha

theorem hostWrite_keeps_inv (o : Offset) (x : Word) : (s.hostWrite o x).Inv := by
  rcases hostWrite_cases s o x with h | ⟨e, h⟩ | ⟨hb, h⟩ | h | h | h | ⟨j, h⟩ | ⟨i, -, h⟩ <;> rw [h]
  · exact hi
  · exact State.recordError_inv hi e
  · exact State.latch_inv hi hb x
  all_goals exact hi

theorem hostTurn_keeps_inv : s.hostTurn.Inv := by
  rcases hostTurn_cases s with h | ⟨rest, h⟩ | ⟨rest, o, x, h⟩ | ⟨rest, o, h⟩ <;> rw [h]
  · exact hi
  · exact hi
  · exact hostWrite_keeps_inv (s := s.nextAccess rest) hi o x
  · obtain ⟨env, hr⟩ := hostRead_frame (s.nextAccess rest) o
    rw [hr]
    exact hi

theorem step_keeps_inv {s' : State} (h : step s = .next s') : s'.Inv := by
  rcases step_cases h with ⟨hc, -, -⟩ | ⟨rfl, -, -⟩ | ⟨rest, -, hc⟩ | ⟨rest, -, rfl⟩ | ⟨rest, -, rfl⟩
  · exact coreStep_keeps_inv hi hc
  · exact hostTurn_keeps_inv hi
  · exact coreStep_keeps_inv (s := s.nextTurn rest) hi hc
  · exact hostTurn_keeps_inv (s := s.nextTurn rest) hi
  · exact State.reset_inv

end

-- ## Which commands write which register (10_state R22, R23, R27 to R29)

section
variable {s s' : State} {i : Instr} (h : Effect s i s') (hs : i ≠ .sreset)
include h hs

theorem Effect.operands_and_block : s'.opa = s.opa ∧ s'.opb = s.opb ∧ s'.opc = s.opc ∧ s'.m = s.m := by
  cases h with
  | sreset => exact absurd rfl hs
  | error => simp
  | _ => exact ⟨rfl, rfl, rfl, rfl⟩

theorem Effect.aluOrUnit_of_result_ne (hr : s'.result ≠ s.result) : AluOrUnit i := by
  cases h with
  | result i x hi => exact hi
  | sreset => exact absurd rfl hs
  | error => simp at hr
  | _ => exact absurd rfl hr

theorem Effect.init_or_end_of_h_ne (hh : s'.h ≠ s.h) : (∃ var, i = .init var) ∨ i = .endBlock := by
  cases h with
  | init var => exact .inl ⟨var, rfl⟩
  | endBlock => exact .inr rfl
  | sreset => exact absurd rfl hs
  | error => simp at hh
  | _ => exact absurd rfl hh

theorem Effect.block_begin_or_round_of_v_or_s_ne (hvs : s'.v ≠ s.v ∨ s'.s ≠ s.s) :
    i = .block ∨ i = .beginBlock ∨ i = .round := by
  cases h with
  | block => exact .inl rfl
  | beginBlock => exact .inr (.inl rfl)
  | round => exact .inr (.inr rfl)
  | sreset => exact absurd rfl hs
  | error => simp at hvs
  | _ => exact absurd hvs (by simp)

end

/-- A step of a running BLOCK writes none of the operands, RESULT and `M`. -/
theorem State.autoStep_frame (s : State) :
    s.autoStep.opa = s.opa ∧ s.autoStep.opb = s.opb ∧ s.autoStep.opc = s.opc ∧ s.autoStep.m = s.m
      ∧ s.autoStep.result = s.result := by
  unfold State.autoStep
  split <;> exact ⟨rfl, rfl, rfl, rfl, rfl⟩

end Sys2Proof.Machine

-- ## The obligations

namespace Sys2Proof.Proofs

open Sys2Proof.Machine Sys2Proof.Claims

/-- Settles O36, by the invariants of each agent's event: a core step, a host's turn, a reset. -/
theorem everyStepKeepsTheInvariants : Obligations.EveryStepKeepsTheInvariants := by
  unfold Obligations.EveryStepKeepsTheInvariants
  intro s s' hi h
  exact step_keeps_inv hi h

/-- Settles O34, from the fields of the STATUS word one by one; DWORDS is read off the variant's table. -/
theorem statusWordHoldsItsFields : Obligations.StatusWordHoldsItsFields := by
  unfold Obligations.StatusWordHoldsItsFields
  intro s
  refine ⟨s.statusWord_busy, s.statusWord_err, s.statusWord_valid, s.statusWord_active, s.statusWord_errcode,
    s.statusWord_variant, s.statusWord_bit_eleven, s.statusWord_t, s.statusWord_high_bits, ?_⟩
  rw [s.statusWord_dwords]
  refine ⟨fun hv => ?_, fun hv hvar => ?_, fun hv hvar => ?_, fun hv hvar => ?_⟩
  · simp [State.dwords, hv]
  all_goals simp [State.dwords, hv, hvar, digestWords]

/-- Settles O40: a core step is nothing, a command, a decode error or a step of a running BLOCK, and each register's writers among
these are known; SRESET is excluded by its word. -/
theorem onlyTheStatedCommandsWriteEachRegister : Obligations.OnlyTheStatedCommandsWriteEachRegister := by
  unfold Obligations.OnlyTheStatedCommandsWriteEachRegister
  intro s s' h hsreset
  have henv := coreStep_env h
  rcases coreStep_effect h with ⟨-, rfl⟩ | ⟨-, c, hp, ⟨i, hd, heff⟩ | ⟨e, -, rfl⟩⟩ | ⟨-, -, ha, rfl⟩
  · simp
  · have hs : i ≠ .sreset := by
      rintro rfl
      exact hsreset (by rw [hp, eq_opcode_of_decode hd rfl]; rfl)
    obtain ⟨hop, -⟩ := opcodeField_of_decode hd
    obtain ⟨hopa, hopb, hopc, hm⟩ := heff.operands_and_block hs
    refine ⟨hopa, hopb, hopc, hm, henv, fun hr => ⟨c, hp, ?_⟩, fun hh => .inr ⟨c, hp, ?_⟩, fun hvs => .inr ?_⟩
    · have hi := heff.aluOrUnit_of_result_ne hs hr
      rw [AluOrUnit, ← hop] at hi
      exact hi
    · obtain ⟨var, rfl⟩ | rfl := heff.init_or_end_of_h_ne hs hh
      · exact .inl hop
      · exact .inr (eq_opcode_of_decode hd rfl)
    · rw [hp]
      obtain rfl | rfl | rfl := heff.block_begin_or_round_of_v_or_s_ne hs hvs
      · exact .inl (congrArg some (eq_opcode_of_decode hd rfl))
      · exact .inr (.inl (congrArg some (eq_opcode_of_decode hd rfl)))
      · exact .inr (.inr (congrArg some (eq_opcode_of_decode hd rfl)))
  · simp
  · obtain ⟨hopa, hopb, hopc, hm, hr⟩ := s.autoStep_frame
    exact ⟨hopa, hopb, hopc, hm, henv, fun hne => absurd hr hne, fun _ => .inl ha, fun _ => .inl ha⟩

/-- Settles O8: the step is a core step in each of the orders of turns named, and the decoder reads back an encoded word. -/
theorem stepRunsTheLatchedCommand : Obligations.StepRunsTheLatchedCommand := by
  unfold Obligations.StepRunsTheLatchedCommand
  refine ⟨fun s c i hi hp hd => ⟨fun ht => ?_, fun rest ht => ?_⟩, fun s i hi => ?_⟩
  · have hb : s.busy = true := by simp [State.busy, hp]
    rw [step_of_noTurns ht hb]
    exact coreStep_of_command hi hp hd
  · rw [step_of_coreTurn ht]
    exact coreStep_of_command (s := s.nextTurn rest) hi hp hd
  · rw [State.withFetchWord_encode, step_of_coreTurn (rest := s.env.turns) rfl]
    exact coreStep_of_command (State.placeCommand_inv hi (encode i)) rfl (decode_encode i)

/-- Settles O33. -/
theorem resetClearsEveryRegister : Obligations.ResetClearsEveryRegister := by
  unfold Obligations.ResetClearsEveryRegister
  decide

/-- Settles O35: at reset the invariants are decided, and no block is in progress. -/
theorem invariantsHoldAtReset : Obligations.InvariantsHoldAtReset := by
  unfold Obligations.InvariantsHoldAtReset
  refine ⟨State.reset_inv, by decide, fun b hactive => ?_⟩
  cases hactive

end Sys2Proof.Proofs

/-! PROOFS. The obligations of 20_memory: the register window, writes while busy, and the host's procedure. -/

namespace Sys2Proof.Machine

-- ## The register map (20_memory R51)

/-- The byte offset 20_memory R51 gives a register; an unmapped offset is no register's. -/
def Register.byteOffset : Register → Option Nat
  | .cmd => some 0x00
  | .status => some 0x04
  | .opa => some 0x08
  | .opb => some 0x0C
  | .opc => some 0x10
  | .result => some 0x14
  | .unmapped => none
  | .m j => some (0x40 + 4 * j)
  | .h i => some (0x80 + 4 * i)
  | .v i => some (0xA0 + 4 * i)
  | .s j => some (0xC0 + 4 * j)

theorem registerAt_eq_of_byteOffset {o : Offset} {r : Register} (h : r.byteOffset = some (4 * o.toNat)) :
    registerAt o = r := by
  cases r <;> simp only [Register.byteOffset, Option.some.injEq, reduceCtorEq] at h
    <;> simp only [registerAt, Offset.byteOffset, ← h]
  case m => simp (disch := omega) [dif_pos, if_neg]
  case h | v | s => simp (disch := omega) [dif_pos, dif_neg, if_neg]
  all_goals rfl

/-- Every offset is that of its register, or one of the unmapped ones. -/
theorem byteOffset_registerAt : ∀ o : Offset,
    (registerAt o).byteOffset = some (4 * o.toNat)
      ∨ (registerAt o = .unmapped ∧ 0x18 ≤ 4 * o.toNat ∧ 4 * o.toNat ≤ 0x3C) := by
  decide

theorem registerAt_of_unmapped :
    ∀ o : Offset, 0x18 ≤ 4 * o.toNat → 4 * o.toNat ≤ 0x3C → registerAt o = .unmapped := by
  decide

/-- No two offsets share a register. -/
theorem eq_of_registerAt_eq {o p : Offset} (h : registerAt p = registerAt o) (hm : registerAt o ≠ .unmapped) : p = o := by
  obtain hp | ⟨hp, -⟩ := byteOffset_registerAt p
  · obtain ho | ⟨ho, -⟩ := byteOffset_registerAt o
    · rw [h, ho, Option.some.injEq] at hp
      exact BitVec.eq_of_toNat_eq (by omega)
    · exact absurd ho hm
  · exact absurd (h ▸ hp) hm

-- ## Host accesses (20_memory R52 to R59)

theorem State.recordError_code (s : State) (e : CmdError) : s.recordError e = Claims.recorded e.code s :=
  s.recordError_eq e

theorem hostWrite_of_busy {s : State} (hb : s.busy = true) (o : Offset) (x : Word) :
    s.hostWrite o x = s.recordError .busyWrite := by
  simp [State.hostWrite, hb]

theorem hostWrite_of_idle {s : State} (hb : s.busy = false) (o : Offset) (x : Word) :
    s.hostWrite o x = s.writeRegister (registerAt o) x := by
  simp [State.hostWrite, hb]

/-- A write to a register, at its offset. -/
theorem hostWrite_at {s : State} (hb : s.busy = false) {o : Offset} (x : Word) {r : Register}
    (h : r.byteOffset = some (4 * o.toNat)) : s.hostWrite o x = s.writeRegister r x := by
  rw [hostWrite_of_idle hb, registerAt_eq_of_byteOffset h]

theorem hostWrite_cmd {s : State} (hb : s.busy = false) (x : Word) : s.hostWrite 0 x = s.cmdWrite x :=
  hostWrite_at hb x (r := .cmd) rfl

@[simp] theorem hostWrite_env (s : State) (o : Offset) (x : Word) : (s.hostWrite o x).env = s.env := by
  rcases hostWrite_cases s o x with h | ⟨e, h⟩ | ⟨-, h⟩ | h | h | h | ⟨j, h⟩ | ⟨i, -, h⟩ <;> rw [h]
  exact s.recordError_env e

/-- While an error is recorded CMD takes the CLRERR and SRESET words only (20_memory R54). -/
theorem cmdWrite_of_err {s : State} {c : Word} (he : s.err = true) (h1 : c ≠ 0x00000031) (h0 : c ≠ 0x00000030) :
    s.cmdWrite c = s :=
  if_pos ⟨he, h1, h0⟩

theorem cmdWrite_latches {s : State} {c : Word} (h : s.err = false ∨ c = 0x00000031 ∨ c = 0x00000030) :
    s.cmdWrite c = { s with pending := some c } := by
  rcases h with h | h | h <;> simp [State.cmdWrite, h]

theorem readsAs_of_readWindow {s : State} {o : Offset} {x : Word} (h : s.readWindow (registerAt o) = some x) :
    Claims.ReadsAs s o x := by
  simp only [Claims.ReadsAs, State.hostRead, h]

/-- A read of a register, at its offset. -/
theorem readsAs_at {s : State} {o : Offset} {x : Word} (r : Register) (h : r.byteOffset = some (4 * o.toNat))
    (hr : s.readWindow r = some x) : Claims.ReadsAs s o x :=
  readsAs_of_readWindow (by rw [registerAt_eq_of_byteOffset h, hr])

/-- While idle every register reads as some word. -/
theorem readWindow_of_idle {s : State} (hb : s.busy = false) (r : Register) : ∃ x, s.readWindow r = some x := by
  cases r <;> simp [State.readWindow, hb]

/-- While busy the registers other than CMD and STATUS have no value of their own (20_memory R58). -/
theorem readWindow_of_unreliable {s : State} {o : Offset} (hb : s.busy = true) (hu : Claims.Unreliable o) :
    s.readWindow (registerAt o) = none := by
  obtain ⟨hcmd, hstatus, hmapped⟩ := hu
  obtain ho | ⟨-, hrange⟩ := byteOffset_registerAt o
  · cases hr : registerAt o with
    | cmd | status => rw [hr, Register.byteOffset, Option.some.injEq] at ho; omega
    | unmapped => simp [hr, Register.byteOffset] at ho
    | _ => simp [State.readWindow, hb]
  · exact absurd hrange hmapped

/-- What a read tells the host depends on the word read and on what it has been told before. -/
theorem hostRead_env_congr {s s' : State} {o : Offset} (he : s'.env = s.env)
    (hr : s'.readWindow (registerAt o) = s.readWindow (registerAt o)) : (s'.hostRead o).env = (s.hostRead o).env := by
  unfold State.hostRead
  rw [hr]
  split <;> simp [he]

/-- The registers a write of an idle core stores into (20_memory R56, R59). -/
def State.Stores (s : State) : Register → Prop
  | .opa | .opb | .opc | .m _ => True
  | .h _ => s.active = false
  | .cmd | .status | .result | .unmapped | .v _ | .s _ => False

/-- The offsets of the registers that are stored into (20_memory R51, R56, R59). -/
theorem stores_registerAt {s : State} {o : Offset}
    (h : 4 * o.toNat = 0x08 ∨ 4 * o.toNat = 0x0C ∨ 4 * o.toNat = 0x10 ∨ (0x40 ≤ 4 * o.toNat ∧ 4 * o.toNat ≤ 0x7C)
      ∨ (0x80 ≤ 4 * o.toNat ∧ 4 * o.toNat ≤ 0x9C ∧ s.active = false)) : s.Stores (registerAt o) := by
  obtain ho | ⟨-, hrange⟩ := byteOffset_registerAt o
  · cases hr : registerAt o with
    | opa | opb | opc | m => trivial
    | h i =>
      rw [hr, Register.byteOffset, Option.some.injEq] at ho
      obtain h | h | h | h | ⟨-, -, ha⟩ := h
      case inr.inr.inr.inr => exact ha
      all_goals omega
    | unmapped => simp [hr, Register.byteOffset] at ho
    | cmd | status | result | v | s => rw [hr, Register.byteOffset, Option.some.injEq] at ho; omega
  · omega

theorem writeRegister_h_of_inactive {s : State} (ha : s.active = false) (i : Fin 8) (x : Word) :
    s.writeRegister (.h i) x = { s with h := s.h.set i x } :=
  if_neg (by simp [ha])

theorem writeRegister_h_of_active {s : State} (ha : s.active = true) (i : Fin 8) (x : Word) :
    s.writeRegister (.h i) x = s.recordError .sequence :=
  if_pos ha

section
variable {s : State} {r : Register} (hs : s.Stores r) (x : Word)
include hs

/-- Storing into a register leaves all but the operands, `M` and `H`. -/
theorem writeRegister_frame :
    ∃ opa opb opc m h, s.writeRegister r x = { s with opa := opa, opb := opb, opc := opc, m := m, h := h } := by
  cases r with
  | opa | opb | opc | m => exact ⟨_, _, _, _, _, rfl⟩
  | h i => rw [writeRegister_h_of_inactive hs]; exact ⟨_, _, _, _, _, rfl⟩
  | _ => exact hs.elim

theorem busy_writeRegister : (s.writeRegister r x).busy = s.busy := by
  obtain ⟨opa, opb, opc, m, h, heq⟩ := writeRegister_frame hs x
  rw [heq]
  rfl

theorem readWindow_writeRegister_same (hb : s.busy = false) : (s.writeRegister r x).readWindow r = some x := by
  have hb' : ¬ (s.writeRegister r x).busy = true := by simp [busy_writeRegister hs, hb]
  cases r with
  | opa | opb | opc => exact if_neg hb'
  | m j => exact (if_neg hb').trans (congrArg some (Vector.getElem_set_self _))
  | h i =>
    rw [writeRegister_h_of_inactive hs] at hb' ⊢
    exact (if_neg hb').trans (congrArg some (Vector.getElem_set_self _))
  | _ => exact hs.elim

theorem readWindow_writeRegister_of_ne {r' : Register} (hne : r' ≠ r) :
    (s.writeRegister r x).readWindow r' = s.readWindow r' := by
  cases r with
  | opa => cases r' with
    | opa => exact absurd rfl hne
    | _ => rfl
  | opb => cases r' with
    | opb => exact absurd rfl hne
    | _ => rfl
  | opc => cases r' with
    | opc => exact absurd rfl hne
    | _ => rfl
  | m j => cases r' with
    | m k =>
      have hjk : (j : Nat) ≠ k := fun h => hne (congrArg Register.m (Fin.ext h.symm))
      have hget : (s.m.set j x)[k] = s.m[k] := Vector.getElem_set_ne _ _ hjk
      simp only [State.readWindow, State.writeRegister, hget]
      rfl
    | _ => rfl
  | h i =>
    rw [writeRegister_h_of_inactive hs]
    cases r' with
    | h k =>
      have hik : (i : Nat) ≠ k := fun h => hne (congrArg Register.h (Fin.ext h.symm))
      have hget : (s.h.set i x)[k] = s.h[k] := Vector.getElem_set_ne _ _ hik
      simp only [State.readWindow, hget]
      rfl
    | _ => rfl
  | _ => exact hs.elim

end

-- ## A core step after a recorded error (60_exceptions R202, R204)

/-- The first record stays: a second error changes nothing. -/
@[simp] theorem State.recordError_recordError (s : State) (e e' : CmdError) :
    (s.recordError e).recordError e' = s.recordError e :=
  if_pos (s.recordError_err e)

/-- `AfterError e s s' r`: where an event leads from `s` to `s'`, it leads to `r` from `s` with the error `e` recorded.
`exec_recordError` and `coreStep_recordError` tie it to the events. -/
inductive AfterError (e : CmdError) (s s' : State) : State → Prop
  /-- the event leaves the error record alone -/
  | kept (herr : s'.err = s.err) (hcode : s'.errcode = s.errcode) : AfterError e s s' (s'.recordError e)
  /-- the event fails: the earlier record stays -/
  | failed (e' : CmdError) (hs : s' = s.recordError e') : AfterError e s s' (s.recordError e)
  /-- the event clears the record, as SRESET and CLRERR do -/
  | cleared (herr : s'.err = false) : AfterError e s s' s'

/-- An update of the state that neither reads nor writes the error record. -/
def IgnoresError (f : State → State) : Prop :=
  ∀ (s : State) err code, f { s with err := err, errcode := code } = { f s with err := err, errcode := code }

section
variable {f : State → State} (hf : IgnoresError f) (s : State) (e : CmdError)
include hf

theorem IgnoresError.keeps : (f s).err = s.err ∧ (f s).errcode = s.errcode := by
  have hs : f s = { f s with err := s.err, errcode := s.errcode } := hf s s.err s.errcode
  exact ⟨by rw [hs], by rw [hs]⟩

theorem IgnoresError.recordError : f (s.recordError e) = (f s).recordError e := by
  obtain ⟨herr, hcode⟩ := hf.keeps s
  rw [State.recordError_eq, State.recordError_eq, hf, herr, hcode]

theorem AfterError.of_ignoresError : AfterError e s (f s) (f (s.recordError e)) := by
  obtain ⟨herr, hcode⟩ := hf.keeps s
  rw [hf.recordError]
  exact .kept herr hcode

/-- A command of two checks, each with its error, before its effect. -/
theorem AfterError.of_two_checks {c d : Prop} [Decidable c] [Decidable d] {e₁ e₂ : CmdError} {s' : State}
    (h : (if c then .next (s.recordError e₁) else if d then .next (s.recordError e₂) else .next (f s)
      : Host.Outcome State Fault Refusal) = .next s') :
    ∃ r, (if c then .next (s.recordError e) else if d then .next (s.recordError e) else .next (f (s.recordError e))
      : Host.Outcome State Fault Refusal) = .next r ∧ AfterError e s s' r := by
  split at h
  · cases h; exact ⟨_, if_pos ‹_›, .failed _ rfl⟩
  · rw [if_neg ‹_›]
    split at h <;> cases h
    · exact ⟨_, if_pos ‹_›, .failed _ rfl⟩
    · exact ⟨_, if_neg ‹_›, .of_ignoresError hf s e⟩

end

theorem State.takePending_ignoresError : IgnoresError State.takePending := fun _ _ _ => rfl

theorem State.autoStep_ignoresError : IgnoresError State.autoStep := by
  intro s err code
  by_cases h : s.t.toNat < s.rounds
  · exact (if_pos h).trans (by rw [State.autoStep, if_pos h]; rfl)
  · exact (if_neg h).trans (by rw [State.autoStep, if_neg h]; rfl)

/-- Every command: its checks read no error record, and its effect neither reads nor writes one, SRESET and CLRERR apart. -/
theorem exec_recordError {i : Instr} {s s' : State} (e : CmdError) (h : exec i s = .next s') :
    ∃ r, exec i (s.recordError e) = .next r ∧ AfterError e s s' r := by
  cases i
  case nop => cases h; exact ⟨_, rfl, .of_ignoresError (f := id) (fun _ _ _ => rfl) s e⟩
  case sreset =>
    cases h
    exact ⟨_, by simp only [exec, execSreset, State.resetCore, State.recordError_env], .cleared rfl⟩
  case clrerr =>
    cases h
    exact ⟨_, by simp only [exec, execClrerr, State.recordError_eq]; rfl, .cleared s.clearError_err⟩
  case init var =>
    simp only [exec, execInit, raiseError_eq, State.recordError_recordError] at h ⊢
    split at h <;> cases h
    · exact ⟨_, if_pos ‹_›, .of_ignoresError (f := (·.selectVariant var)) (fun _ _ _ => rfl) s e⟩
    · exact ⟨_, if_neg ‹_›, .failed _ rfl⟩
  case block =>
    simp only [exec, execBlock, raiseError_eq, State.recordError_recordError, State.recordError_valid,
      State.recordError_active] at h ⊢
    exact AfterError.of_two_checks (f := fun s => { s.beginStep with auto := true }) (fun _ _ _ => rfl) s e h
  case beginBlock =>
    simp only [exec, execBegin, raiseError_eq, State.recordError_recordError, State.recordError_valid,
      State.recordError_active] at h ⊢
    exact AfterError.of_two_checks (f := State.beginStep) (fun _ _ _ => rfl) s e h
  case round =>
    simp only [exec, execRound, raiseError_eq, State.recordError_recordError, State.recordError_active, State.recordError_t,
      State.recordError_variant, State.rounds] at h ⊢
    exact AfterError.of_two_checks (f := State.roundStep) (fun _ _ _ => rfl) s e h
  case endBlock =>
    simp only [exec, execEnd, raiseError_eq, State.recordError_recordError, State.recordError_active, State.recordError_t,
      State.recordError_variant, State.rounds] at h ⊢
    split at h <;> cases h
    · exact ⟨_, if_pos ‹_›, .failed _ rfl⟩
    · exact ⟨_, if_neg ‹_›, .of_ignoresError (f := State.endStep) (fun _ _ _ => rfl) s e⟩
  all_goals (cases h; exact ⟨_, rfl, .of_ignoresError (fun _ _ _ => rfl) s e⟩)

/-- Where an event leads after a record differs only in the record from where it leads without one, and keeps the earlier code
if an error is recorded there anyway. -/
theorem AfterError.code_kept {e : CmdError} {s s' r : State} (h : AfterError e s s' r) :
    r = { s' with err := r.err, errcode := r.errcode }
      ∧ (s'.err = true → r.err = true ∧ r.errcode = if s.err = true then s.errcode else e.code) := by
  cases h with
  | kept herr hcode =>
    rw [← herr, ← hcode, State.recordError_eq]
    exact ⟨rfl, fun _ => ⟨rfl, rfl⟩⟩
  | failed e' hs =>
    rw [hs, State.recordError_eq, State.recordError_eq]
    exact ⟨rfl, fun _ => ⟨rfl, rfl⟩⟩
  | cleared herr => exact ⟨rfl, fun h => by simp [herr] at h⟩

theorem coreStep_of_pending_recordError {s s' : State} {c : Word} (e : CmdError) (hi : s.Inv) (hp : s.pending = some c)
    (h : execute c s.takePending = .next s') :
    ∃ r, coreStep (s.recordError e) = .next r ∧ AfterError e s.takePending s' r := by
  have hp' : (s.recordError e).pending = some c := by rw [State.recordError_pending, hp]
  rw [coreStep_of_pending (State.recordError_inv hi e) hp', State.takePending_ignoresError.recordError]
  unfold execute at h ⊢
  split at h
  · exact exec_recordError e h
  · cases h
    exact ⟨_, congrArg Host.Outcome.next (State.recordError_recordError _ e _), .failed _ rfl⟩

theorem coreStep_of_auto_recordError {s : State} (e : CmdError) (hi : s.Inv) (hp : s.pending = none) (ha : s.auto = true) :
    coreStep (s.recordError e) = .next (s.autoStep.recordError e) := by
  have hp' : (s.recordError e).pending = none := by rw [State.recordError_pending, hp]
  have ha' : (s.recordError e).auto = true := by rw [State.recordError_auto, ha]
  rw [coreStep_of_auto (State.recordError_inv hi e) hp' ha', State.autoStep_ignoresError.recordError]

-- ## Packing and padding (20_memory R60, R61, R68)

/-- 20_memory R60 in numbers. -/
theorem packWord_toNat (b0 b1 b2 b3 : Byte) :
    (packWord b0 b1 b2 b3).toNat = b0.toNat * 2 ^ 24 + b1.toNat * 2 ^ 16 + b2.toNat * 2 ^ 8 + b3.toNat := by
  simp only [packWord, BitVec.toNat_append]
  rw [← Nat.shiftLeft_add_eq_or_of_lt b1.isLt, ← Nat.shiftLeft_add_eq_or_of_lt b2.isLt,
    ← Nat.shiftLeft_add_eq_or_of_lt b3.isLt]
  simp only [Nat.shiftLeft_eq]
  omega

/-- 20_memory R61 undoes R60. -/
theorem be32_packWord (b0 b1 b2 b3 : Byte) : be32 (packWord b0 b1 b2 b3) = [b0, b1, b2, b3] := by
  have hbyte {k : Nat} {b : Byte} (h : (packWord b0 b1 b2 b3).toNat / 2 ^ k % 2 ^ 8 = b.toNat) :
      (packWord b0 b1 b2 b3).extractLsb' k 8 = b :=
    BitVec.eq_of_toNat_eq (by rw [BitVec.extractLsb'_toNat, Nat.shiftRight_eq_div_pow, h])
  rw [be32, hbyte (b := b0), hbyte (b := b1), hbyte (b := b2), hbyte (b := b3)] <;> rw [packWord_toNat] <;> omega

@[simp] theorem be32_length (w : Word) : (be32 w).length = 4 := rfl

theorem flatMap_be32_length (ws : List Word) : (ws.flatMap be32).length = 4 * ws.length := by
  induction ws with
  | nil => rfl
  | cons w ws ih => simp [ih]; omega

@[simp] theorem be64_length (x : Nat) : (be64 x).length = 8 := rfl

/-- The bytes of `be64 x`, read big-endian, are `x`. -/
theorem foldl_be64 {x : Nat} (h : x < 2 ^ 64) : (be64 x).foldl (fun acc b => acc * 256 + b.toNat) 0 = x := by
  simp only [be64, List.map, List.foldl, BitVec.extractLsb'_toNat, BitVec.toNat_ofNat,
    Nat.mod_eq_of_lt h, Nat.shiftRight_eq_div_pow]
  omega

theorem padZeros_le (len : Nat) : padZeros len ≤ 63 := by
  unfold padZeros; omega

/-- The message, the byte 0x80 and the zeros end 8 bytes short of a block. -/
theorem add_padZeros_mod (len : Nat) : (len + padZeros len) % 64 = 55 := by
  unfold padZeros; omega

theorem pad_length (msg : List Byte) : (pad msg).length = msg.length + padZeros msg.length + 9 := by
  simp [pad]; omega

theorem digestWords_le (var : BitVec 3) : (digestWords var).toNat ≤ 8 := by revert var; decide

theorem digestBytes_length (var : BitVec 3) (h : Vector Word 8) :
    (digestBytes var h).length = 4 * (digestWords var).toNat := by
  rw [digestBytes, flatMap_be32_length, List.length_take, Vector.length_toList, min_eq_left (digestWords_le var)]

theorem inMessageDomain_iff {msg : List Byte} : inMessageDomain msg = true ↔ 8 * msg.length < 2 ^ 64 := by
  simp [inMessageDomain]

-- ## A command run to its end by the core alone (10_state R40)

theorem State.busy_eq_false_iff (s : State) : s.busy = false ↔ s.pending = none ∧ s.auto = false := by
  simp [State.busy]

/-- Taking the word latched into an idle core gives the core back. -/
theorem takePending_of_latched {s : State} (hb : s.busy = false) (c : Word) :
    State.takePending { s with pending := some c } = s := by
  obtain ⟨hp, -⟩ := s.busy_eq_false_iff.mp hb
  rw [State.takePending, ← hp]

theorem coreStep_of_latched {s : State} (hi : s.Inv) (hb : s.busy = false) (i : Instr) :
    coreStep { s with pending := some (encode i) } = exec i s := by
  rw [coreStep_of_command (State.latch_inv hi hb _) rfl (decode_encode i), takePending_of_latched hb]

theorem coreSteps_succ {n : Nat} {s r : State} (h : coreSteps (n + 1) s = .next r) :
    ∃ s', coreStep s = .next s' ∧ coreSteps n s' = .next r := by
  cases hc : coreStep s <;> simp only [coreSteps, hc, andThen, reduceCtorEq] at h
  exact ⟨_, rfl, h⟩

theorem coreSteps_one (s : State) : coreSteps 1 s = coreStep s := by
  cases hc : coreStep s <;> simp only [coreSteps, hc, andThen]

/-- Core steps one after the other. -/
theorem coreSteps_trans {m n : Nat} {s r r' : State} (h : coreSteps m s = .next r) (h' : coreSteps n r = .next r') :
    coreSteps (m + n) s = .next r' := by
  induction m generalizing s with
  | zero => cases h; rwa [Nat.zero_add]
  | succ m ih =>
    obtain ⟨s', hs', hm⟩ := coreSteps_succ h
    rw [Nat.succ_add]
    simp only [coreSteps, hs', andThen]
    exact ih hm

-- ## A running BLOCK, round by round (42_compression R153, R165, R174)

/-- `W[n]` to `W[n+15]` of a block: the schedule window at the start of round `n` (42_compression R153). -/
def scheduleWindow (var : BitVec 3) (b : Vector Word 16) (n : Nat) : Vector Word 16 :=
  Vector.ofFn fun j => scheduleWord var b (n + j)

theorem scheduleWindow_getElem (var : BitVec 3) (b : Vector Word 16) (n : Nat) {j : Nat} (hj : j < 16) :
    (scheduleWindow var b n)[j] = scheduleWord var b (n + j) := by
  simp [scheduleWindow]

theorem scheduleWindow_zero (var : BitVec 3) (b : Vector Word 16) : scheduleWindow var b 0 = b := by
  ext j hj
  rw [scheduleWindow_getElem var b 0 hj, Nat.zero_add, scheduleWord_of_lt var b hj]

/-- The generator computes the next schedule word from the window. -/
theorem newScheduleWord_scheduleWindow (var : BitVec 3) (b : Vector Word 16) (n : Nat) :
    newScheduleWord var (scheduleWindow var b n) = scheduleWord var b (n + 16) := by
  have hback {d : Nat} (hd : 1 ≤ d) (hd' : d ≤ 16) :
      (scheduleList var b n).getD ((scheduleList var b n).length - d) 0 = scheduleWord var b (n + (16 - d)) := by
    rw [scheduleList_length, scheduleList_getD var b (by omega), show 16 + n - d = n + (16 - d) by omega]
  rw [scheduleWord_add_sixteen]
  simp (disch := decide) only [newScheduleWord, scheduleRecurrence, hback, scheduleWindow_getElem]

theorem scheduleAdvance_scheduleWindow (var : BitVec 3) (b : Vector Word 16) (n : Nat) :
    scheduleAdvance var (scheduleWindow var b n) = scheduleWindow var b (n + 1) := by
  ext j hj
  rw [scheduleWindow_getElem var b (n + 1) hj]
  by_cases h15 : j < 15
  · rw [scheduleAdvance_of_lt var _ h15, scheduleWindow_getElem var b n (by omega), show n + (j + 1) = n + 1 + j by omega]
  · obtain rfl : j = 15 := by omega
    rw [scheduleAdvance_last, newScheduleWord_scheduleWindow]

/-- The working variables after the first `n` rounds of the block in `M`, from the hash state (42_compression R165). -/
def State.varsAfter (s : State) (n : Nat) : Vector Word 8 :=
  roundsFrom s.variant (scheduleList s.variant s.m (s.rounds - 16)) (beginVars s.variant s.h) n

/-- The state of a BLOCK that starts in `s`, after its first step and `n` rounds. -/
def State.blockAfter (s : State) (n : Nat) : State :=
  { s with v := s.varsAfter n, s := scheduleWindow s.variant s.m n, t := BitVec.ofNat 7 n, active := true, auto := true }

theorem State.blockAfter_zero (s : State) : s.blockAfter 0 = { s.beginStep with auto := true } := by
  rw [State.blockAfter, scheduleWindow_zero]
  rfl

theorem State.blockAfter_t_toNat {s : State} {n : Nat} (hn : n ≤ s.rounds) : (s.blockAfter n).t.toNat = n := by
  have hN : s.rounds ≤ 80 := roundCount_le s.variant
  exact Nat.mod_eq_of_lt (show n < 2 ^ 7 by omega)

theorem State.blockAfter_inv {s : State} {n : Nat} (hi : s.Inv) (hp : s.pending = none) (hv : s.valid = true)
    (hn : n ≤ s.rounds) : (s.blockAfter n).Inv := by
  obtain ⟨-, -, hvar, -, herr⟩ := hi
  refine ⟨fun _ => hv, fun _ => ⟨rfl, hp⟩, hvar, ⟨fun h => ?_, fun _ => ?_⟩, herr⟩
  · cases h
  · rw [State.blockAfter_t_toNat hn]
    exact hn

theorem State.varsAfter_succ {s : State} {n : Nat} (hn : n < s.rounds) :
    s.varsAfter (n + 1) = transition s.variant n (s.varsAfter n) (scheduleWord s.variant s.m n) := by
  rw [State.varsAfter, roundsFrom_succ, scheduleList_getD s.variant s.m (by omega)]
  rfl

theorem State.autoStep_blockAfter {s : State} {n : Nat} (hn : n < s.rounds) :
    (s.blockAfter n).autoStep = s.blockAfter (n + 1) := by
  have ht := State.blockAfter_t_toNat (Nat.le_of_lt hn)
  have hlt : (s.blockAfter n).t.toNat < (s.blockAfter n).rounds := by rw [ht]; exact hn
  have hw : (s.blockAfter n).s[0] = scheduleWord s.variant s.m n := scheduleWindow_getElem s.variant s.m n (by decide)
  have ht' : (s.blockAfter n).t + 1 = BitVec.ofNat 7 (n + 1) := (BitVec.ofNat_add n 1).symm
  rw [State.autoStep, if_pos hlt, State.roundStep, hw, ht, ht']
  simp only [State.blockAfter, scheduleAdvance_scheduleWindow, State.varsAfter_succ hn]

/-- The state a BLOCK that starts in `s` leaves (42_compression R174): the hash state compressed. -/
def State.blockDone (s : State) : State :=
  { s with h := compress s.variant s.h s.m, v := s.varsAfter s.rounds, s := scheduleWindow s.variant s.m s.rounds }

theorem State.autoStep_blockAfter_rounds {s : State} (ha : s.active = false) (hauto : s.auto = false) (ht : s.t = 0) :
    (s.blockAfter s.rounds).autoStep = s.blockDone := by
  have hge : ¬ (s.blockAfter s.rounds).t.toNat < (s.blockAfter s.rounds).rounds := by
    rw [State.blockAfter_t_toNat le_rfl]
    exact lt_irrefl s.rounds
  rw [State.autoStep, if_neg hge, State.blockDone, State.endStep]
  simp only [State.blockAfter, ha, hauto, ht]
  rfl

/-- The rounds of a running BLOCK, as core steps. -/
theorem coreSteps_blockAfter {s : State} (hi : s.Inv) (hp : s.pending = none) (hv : s.valid = true) {n : Nat}
    (hn : n ≤ s.rounds) : coreSteps n (s.blockAfter 0) = .next (s.blockAfter n) := by
  induction n with
  | zero => rfl
  | succ n ih =>
    refine coreSteps_trans (ih (by omega)) ?_
    rw [coreSteps_one, coreStep_of_auto (State.blockAfter_inv hi hp hv (by omega)) hp rfl,
      State.autoStep_blockAfter (by omega)]

/-- A BLOCK latched in an idle core with a variant and no active block runs to its end: its first step, N rounds and the end. -/
theorem coreSteps_of_latched_block {s : State} (hi : s.Inv) (hb : s.busy = false) (hv : s.valid = true)
    (ha : s.active = false) :
    coreSteps (1 + s.rounds + 1) { s with pending := some (encode .block) } = .next s.blockDone := by
  obtain ⟨hp, hauto⟩ := s.busy_eq_false_iff.mp hb
  have hstart : coreSteps 1 { s with pending := some (encode .block) } = .next (s.blockAfter 0) := by
    rw [coreSteps_one, coreStep_of_latched hi hb, State.blockAfter_zero]
    simp only [exec, execBlock, hv, ha, reduceCtorEq, if_false]
  have ht : s.t = 0 := by
    obtain ⟨-, -, -, ⟨ht, -⟩, -⟩ := hi
    exact ht ha
  refine coreSteps_trans (coreSteps_trans hstart (coreSteps_blockAfter hi hp hv le_rfl)) ?_
  rw [coreSteps_one, coreStep_of_auto (State.blockAfter_inv hi hp hv le_rfl) hp rfl,
    State.autoStep_blockAfter_rounds ha hauto ht]

-- ## Runs of the whole system from the host's side (20_memory R72, 30_encoding R98)

/-- Some number of steps leads from `s` to `s'`. -/
def Reaches (s s' : State) : Prop := ∃ n, runSteps n s = .next s'

theorem Reaches.refl (s : State) : Reaches s s := ⟨0, rfl⟩

theorem Reaches.head {s s₁ s' : State} (h : step s = .next s₁) : Reaches s₁ s' → Reaches s s'
  | ⟨n, hn⟩ => ⟨n + 1, by simp only [runSteps, h, andThen, hn]⟩

theorem Reaches.of_step {s s' : State} (h : step s = .next s') : Reaches s s' := .head h (.refl s')

theorem runSteps_succ {n : Nat} {s s' : State} (h : runSteps (n + 1) s = .next s') :
    ∃ s₁, step s = .next s₁ ∧ runSteps n s₁ = .next s' := by
  cases hs : step s <;> simp only [runSteps, hs, andThen, reduceCtorEq] at h
  exact ⟨_, rfl, h⟩

theorem Reaches.trans {s s₁ s' : State} (h : Reaches s s₁) (h' : Reaches s₁ s') : Reaches s s' := by
  obtain ⟨n, hn⟩ := h
  induction n generalizing s with
  | zero => cases hn; exact h'
  | succ n ih =>
    obtain ⟨s₂, hs, hn⟩ := runSteps_succ hn
    exact .head hs (ih hn)

theorem Reaches.keeps_inv {s s' : State} (hi : s.Inv) (h : Reaches s s') : s'.Inv := by
  obtain ⟨n, hn⟩ := h
  induction n generalizing s with
  | zero => cases hn; exact hi
  | succ n ih =>
    obtain ⟨s₁, hs, hn⟩ := runSteps_succ hn
    exact ih (step_keeps_inv hi hs) hn

theorem State.nextTurn_of_turns {s : State} {l : List Turn} (h : s.env.turns = l) : s.nextTurn l = s := by
  rw [← h]
  rfl

/-- The list of turns is none of a core step's business. -/
theorem coreStep_nextTurn {s s' : State} (h : coreStep s = .next s') (l : List Turn) :
    coreStep (s.nextTurn l) = .next (s'.nextTurn l) :=
  (coreStep_withEnv { s.env with turns := l } h).trans (by rw [State.nextTurn, coreStep_env h])

theorem coreSteps_nextTurn {n : Nat} {s s' : State} (h : coreSteps n s = .next s') (l : List Turn) :
    coreSteps n (s.nextTurn l) = .next (s'.nextTurn l) := by
  induction n generalizing s with
  | zero => cases h; rfl
  | succ n ih =>
    obtain ⟨s₁, hs, hn⟩ := coreSteps_succ h
    simp only [coreSteps, coreStep_nextTurn hs l, andThen]
    exact ih hn

theorem hostTurn_of_write {s : State} {o : Offset} {x : Word} {ops : List HostOp} (hp : s.env.program = .write o x :: ops) :
    s.hostTurn = (s.nextAccess ops).hostWrite o x := by
  simp only [State.hostTurn, hp]

theorem hostTurn_of_read {s : State} {o : Offset} {ops : List HostOp} (hp : s.env.program = .read o :: ops) :
    s.hostTurn = (s.nextAccess ops).hostRead o := by
  simp only [State.hostTurn, hp]

/-- The host's poll while the core is busy (30_encoding R98). -/
theorem hostTurn_of_busy_wait {s : State} {ops : List HostOp} (hb : s.busy = true) (hp : s.env.program = .wait :: ops) :
    s.hostTurn = s := by
  simp only [State.hostTurn, hp, State.statusWord_busy, hb, if_true]

theorem hostTurn_of_idle_wait {s : State} {ops : List HostOp} (hb : s.busy = false) (hp : s.env.program = .wait :: ops) :
    s.hostTurn = s.nextAccess ops := by
  simp only [State.hostTurn, hp, State.statusWord_busy, hb, reduceCtorEq, if_false]

/-- From an idle core the host's turn comes, after some core turns that do nothing. -/
theorem reaches_hostTurn {s : State} (hb : s.busy = false) (hr : Turn.reset ∉ s.env.turns) :
    ∃ l, Turn.reset ∉ l ∧ Reaches s (s.nextTurn l).hostTurn := by
  induction ht : s.env.turns generalizing s with
  | nil =>
    refine ⟨[], List.not_mem_nil, .of_step ?_⟩
    rw [State.nextTurn_of_turns ht]
    simp only [step, takeTurn, ht, hb, reduceCtorEq, if_false]
  | cons turn rest ih =>
    have hrest : Turn.reset ∉ rest := fun h => hr (ht ▸ List.mem_cons_of_mem turn h)
    cases turn with
    | core =>
      obtain ⟨l, hl, hreach⟩ := ih (s := s.nextTurn rest) hb hrest rfl
      exact ⟨l, hl, .head ((step_of_coreTurn ht).trans (coreStep_of_idle (s := s.nextTurn rest) hb)) hreach⟩
    | host => exact ⟨rest, hrest, .of_step (by simp only [step, takeTurn, ht])⟩
    | reset => exact absurd (ht ▸ List.mem_cons_self) hr

/-- While the host polls, the core's next step comes, after some polls. -/
theorem reaches_coreStep {s s' : State} {ops : List HostOp} (hb : s.busy = true) (hp : s.env.program = .wait :: ops)
    (hr : Turn.reset ∉ s.env.turns) (hc : coreStep s = .next s') : ∃ l, Turn.reset ∉ l ∧ Reaches s (s'.nextTurn l) := by
  induction ht : s.env.turns generalizing s s' with
  | nil =>
    refine ⟨[], List.not_mem_nil, .of_step ?_⟩
    rw [State.nextTurn_of_turns (by rw [coreStep_env hc, ht]), step_of_noTurns ht hb, hc]
  | cons turn rest ih =>
    have hrest : Turn.reset ∉ rest := fun h => hr (ht ▸ List.mem_cons_of_mem turn h)
    have hc' := coreStep_nextTurn hc rest
    cases turn with
    | core => exact ⟨rest, hrest, .of_step ((step_of_coreTurn ht).trans hc')⟩
    | host =>
      obtain ⟨l, hl, hreach⟩ := ih (s := s.nextTurn rest) hb hp hrest hc' rfl
      have hpoll : step s = .next (s.nextTurn rest) := by
        simp only [step, takeTurn, ht, hostTurn_of_busy_wait (s := s.nextTurn rest) hb hp]
      exact ⟨l, hl, .head hpoll hreach⟩
    | reset => exact absurd (ht ▸ List.mem_cons_self) hr

/-- While the host polls, any number of core steps is played in full. -/
theorem reaches_coreSteps {n : Nat} {s s' : State} {ops : List HostOp} (hp : s.env.program = .wait :: ops)
    (hr : Turn.reset ∉ s.env.turns) (hc : coreSteps n s = .next s') :
    ∃ l, Turn.reset ∉ l ∧ Reaches s (s'.nextTurn l) := by
  induction n generalizing s s' with
  | zero =>
    cases hc
    exact ⟨s.env.turns, hr, by rw [State.nextTurn_of_turns rfl]; exact .refl s⟩
  | succ n ih =>
    obtain ⟨s₁, hs, hn⟩ := coreSteps_succ hc
    cases hb : s.busy with
    | false =>
      rw [coreStep_of_idle hb] at hs
      cases hs
      exact ih hp hr hn
    | true =>
      obtain ⟨l, hl, hreach⟩ := reaches_coreStep hb hp hr hs
      have hp₁ : (s₁.nextTurn l).env.program = .wait :: ops := by
        rw [← hp, ← coreStep_env hs]
        rfl
      obtain ⟨l', hl', hreach'⟩ := ih hp₁ hl (coreSteps_nextTurn hn l)
      exact ⟨l', hl', hreach.trans hreach'⟩

theorem coreSteps_env {n : Nat} {s s' : State} (h : coreSteps n s = .next s') : s'.env = s.env := by
  induction n generalizing s with
  | zero => cases h; rfl
  | succ n ih =>
    obtain ⟨s₁, hs, hn⟩ := coreSteps_succ h
    rw [ih hn, coreStep_env hs]

-- ## Host programs, piece by piece

/-- The core is idle, its invariants hold, and no reset is to come. -/
structure State.Resting (s : State) : Prop where
  inv : s.Inv
  idle : s.busy = false
  noReset : Turn.reset ∉ s.env.turns

/-- `HostTriple P ops Q`: from a resting state with `P` and the accesses `ops` next in the host's program, some number of steps, in
any order of core and host turns, leads to a resting state with `Q` in which just these accesses are used up. -/
def HostTriple (P : State → Prop) (ops : List HostOp) (Q : State → Prop) : Prop :=
  ∀ (s : State) (rest : List HostOp), s.Resting → s.env.program = ops ++ rest → P s →
    ∃ s', Reaches s s' ∧ s'.Resting ∧ s'.env.program = rest ∧ Q s'

/-- Of the world around the core, `P` speaks of the host's answers only. -/
def OfCoreAndAnswers (P : State → Prop) : Prop :=
  ∀ (s : State) (env : Environment), env.answers = s.env.answers → P s → P { s with env := env }

section
variable {P Q R : State → Prop}

theorem HostTriple.nil : HostTriple P [] P := fun s _ hs hp hP => ⟨s, .refl s, hs, hp, hP⟩

theorem HostTriple.append {ops ops' : List HostOp} (h : HostTriple P ops Q) (h' : HostTriple Q ops' R) :
    HostTriple P (ops ++ ops') R := by
  intro s rest hs hp hP
  rw [List.append_assoc] at hp
  obtain ⟨s₁, hreach, hs₁, hp₁, hQ⟩ := h s _ hs hp hP
  obtain ⟨s₂, hreach', hs₂, hp₂, hR⟩ := h' s₁ rest hs₁ hp₁ hQ
  exact ⟨s₂, hreach.trans hreach', hs₂, hp₂, hR⟩

theorem HostTriple.mono {P' Q' : State → Prop} {ops : List HostOp} (hP : ∀ s, P' s → P s) (h : HostTriple P ops Q)
    (hQ : ∀ s, Q s → Q' s) : HostTriple P' ops Q' := by
  intro s rest hs hp hPs
  obtain ⟨s', hreach, hs', hp', hQs⟩ := h s rest hs hp (hP s hPs)
  exact ⟨s', hreach, hs', hp', hQ s' hQs⟩

/-- A write that leaves the core idle. -/
theorem HostTriple.write {o : Offset} {x : Word} (hP : OfCoreAndAnswers P)
    (h : ∀ s, s.busy = false → P s → (s.hostWrite o x).busy = false ∧ Q (s.hostWrite o x)) :
    HostTriple P [.write o x] Q := by
  intro s rest hs hp hPs
  obtain ⟨l, hl, hreach⟩ := reaches_hostTurn hs.idle hs.noReset
  rw [hostTurn_of_write (s := s.nextTurn l) (ops := rest) hp] at hreach
  obtain ⟨hidle, hQ⟩ := h ((s.nextTurn l).nextAccess rest) hs.idle (hP s _ rfl hPs)
  exact ⟨_, hreach, ⟨hreach.keeps_inv hs.inv, hidle, by simpa using hl⟩, by simp, hQ⟩

/-- A read, of an idle core. -/
theorem HostTriple.read {o : Offset}
    (h : ∀ (s : State) (x : Word) (env : Environment), s.busy = false → P s → s.readWindow (registerAt o) = some x →
      env.answers = s.env.answers ++ [x] → Q { s with env := env }) : HostTriple P [.read o] Q := by
  intro s rest hs hp hPs
  obtain ⟨l, hl, hreach⟩ := reaches_hostTurn hs.idle hs.noReset
  obtain ⟨x, hx⟩ := readWindow_of_idle hs.idle (registerAt o)
  have hread : Claims.ReadsAs ((s.nextTurn l).nextAccess rest) o x := readsAs_of_readWindow hx
  rw [hostTurn_of_read (s := s.nextTurn l) (ops := rest) hp, hread] at hreach
  exact ⟨_, hreach, ⟨hreach.keeps_inv hs.inv, hs.idle, hl⟩, rfl, h s x _ hs.idle hPs hx rfl⟩

/-- A command and the WAIT after it: the core steps that run the command are played in full. -/
theorem HostTriple.command {i : Instr} (hP : OfCoreAndAnswers P) (hQ : OfCoreAndAnswers Q)
    (h : ∀ s, s.Inv → s.busy = false → P s →
      ∃ n r, coreSteps n (s.hostWrite 0 (encode i)) = .next r ∧ r.busy = false ∧ Q r) :
    HostTriple P [cmdOp i, .wait] Q := by
  intro s rest hs hp hPs
  obtain ⟨l, hl, hwrite⟩ := reaches_hostTurn hs.idle hs.noReset
  rw [hostTurn_of_write (s := s.nextTurn l) (o := 0) (x := encode i) (ops := .wait :: rest) hp] at hwrite
  obtain ⟨n, r, hsteps, hidle, hQr⟩ := h ((s.nextTurn l).nextAccess (.wait :: rest)) hs.inv hs.idle (hP s _ rfl hPs)
  obtain ⟨l', hl', hrun⟩ := reaches_coreSteps (ops := rest) (by simp) (by simpa using hl) hsteps
  obtain ⟨l'', hl'', hwait⟩ := reaches_hostTurn (s := r.nextTurn l') hidle hl'
  have hp' : (r.nextTurn l'').env.program = .wait :: rest := by simp [coreSteps_env hsteps]
  have hpoll : ((r.nextTurn l').nextTurn l'').hostTurn = (r.nextTurn l'').nextAccess rest :=
    hostTurn_of_idle_wait (s := r.nextTurn l'') hidle hp'
  rw [hpoll] at hwait
  have hreach := (hwrite.trans hrun).trans hwait
  exact ⟨_, hreach, ⟨hreach.keeps_inv hs.inv, hidle, hl''⟩, rfl, hQ r _ rfl hQr⟩

/-- A loop of accesses: each carries the assertion of its index on to the next index's. -/
theorem HostTriple.range {P : Nat → State → Prop} {op : Nat → HostOp} {n : Nat}
    (h : ∀ k < n, HostTriple (P k) [op k] (P (k + 1))) : HostTriple (P 0) ((List.range n).map op) (P n) := by
  induction n with
  | zero => exact .nil
  | succ n ih =>
    rw [List.range_succ, List.map_append]
    exact (ih fun k hk => h k (by omega)).append (h n (by omega))

end

-- ## The host's procedure (20_memory R70)

theorem byteOffset_ofByteOffset {k : Nat} (hk : k % 4 = 0) (h : k < 256) : 4 * (Offset.ofByteOffset k).toNat = k := by
  simp only [Offset.ofByteOffset, BitVec.toNat_ofNat]
  omega

/-- The procedure's assertion: the error flag and the host's answers are those given, and, unless an error is recorded, `var` is
selected with hash state `h` and no block is active. -/
structure Hashing (e : Bool) (ans : List Word) (var : BitVec 3) (h : Vector Word 8) (s : State) : Prop where
  err : s.err = e
  answers : s.env.answers = ans
  hash : e = false → s.valid = true ∧ s.active = false ∧ s.variant = var ∧ s.h = h

section
variable {e : Bool} {ans : List Word} {var : BitVec 3} {h : Vector Word 8}

theorem Hashing.ofCoreAndAnswers : OfCoreAndAnswers (Hashing e ans var h) :=
  fun _ _ henv hs => ⟨hs.err, henv.trans hs.answers, hs.hash⟩

/-- While an error is recorded a command other than SRESET and CLRERR is not latched, so nothing runs. -/
theorem hostWrite_command_of_err {s : State} (hb : s.busy = false) (he : s.err = true) {i : Instr}
    (h31 : encode i ≠ 0x00000031) (h30 : encode i ≠ 0x00000030) : s.hostWrite 0 (encode i) = s := by
  rw [hostWrite_cmd hb, cmdWrite_of_err he h31 h30]

theorem hostWrite_command_of_noErr {s : State} (hb : s.busy = false) (he : s.err = false) (i : Instr) :
    s.hostWrite 0 (encode i) = { s with pending := some (encode i) } := by
  rw [hostWrite_cmd hb, cmdWrite_latches (.inl he)]

/-- The accesses for INIT (20_memory R70, first line). -/
theorem hostTriple_init (hvar : supported var = true) :
    HostTriple (fun s => s.err = e ∧ s.env.answers = ans) [cmdOp (.init var), .wait] (Hashing e ans var (initialHash var)) := by
  refine .command (fun _ _ henv ⟨he, hans⟩ => ⟨he, henv.trans hans⟩) Hashing.ofCoreAndAnswers
    fun s hi hb ⟨he, hans⟩ => ?_
  cases e with
  | true =>
    rw [hostWrite_command_of_err hb he (by revert var; decide) (by revert var; decide)]
    exact ⟨0, s, rfl, hb, he, hans, by simp⟩
  | false =>
    rw [hostWrite_command_of_noErr hb he]
    refine ⟨1, s.selectVariant var, ?_, hb, he, hans, fun _ => ⟨rfl, rfl, rfl, rfl⟩⟩
    rw [coreSteps_one, coreStep_of_latched hi hb]
    exact if_pos hvar

/-- The accesses for BLOCK: the hash state is compressed with the block in `M`. -/
theorem hostTriple_block (b : Vector Word 16) :
    HostTriple (fun s => Hashing e ans var h s ∧ s.m = b) [cmdOp .block, .wait] (Hashing e ans var (compress var h b)) := by
  refine .command (fun s env henv ⟨hs, hm⟩ => ⟨Hashing.ofCoreAndAnswers s env henv hs, hm⟩) Hashing.ofCoreAndAnswers
    fun s hi hb hs => ?_
  obtain ⟨⟨he, hans, hhash⟩, rfl⟩ := hs
  cases e with
  | true =>
    rw [hostWrite_command_of_err hb he (by decide) (by decide)]
    exact ⟨0, s, rfl, hb, he, hans, by simp⟩
  | false =>
    obtain ⟨hv, ha, rfl, rfl⟩ := hhash rfl
    rw [hostWrite_command_of_noErr hb he]
    exact ⟨_, _, coreSteps_of_latched_block hi hb hv ha, hb, he, hans, fun _ => ⟨hv, ha, rfl, rfl⟩⟩

/-- The write of word `k` of a block into `M`. -/
theorem hostWrite_m {s : State} (hb : s.busy = false) {k : Nat} (hk : k < 16) (x : Word) :
    s.hostWrite (Offset.ofByteOffset (0x40 + 4 * k)) x = { s with m := s.m.set k x } := by
  refine hostWrite_at hb x (r := .m ⟨k, hk⟩) (congrArg some ?_)
  rw [byteOffset_ofByteOffset (by omega) (by omega)]

/-- `Hashing`, and the first `k` words of the block `b` are in `M`. -/
def HashingLoaded (e : Bool) (ans : List Word) (var : BitVec 3) (h : Vector Word 8) (b : Vector Word 16) (k : Nat) (s : State) :
    Prop :=
  Hashing e ans var h s ∧ ∀ j (_ : j < 16), j < k → s.m[j] = b[j]

theorem hostTriple_loadWord (b : Vector Word 16) {k : Nat} (hk : k < 16) :
    HostTriple (HashingLoaded e ans var h b k) [.write (Offset.ofByteOffset (0x40 + 4 * k)) (b.toList.getD k 0)]
      (HashingLoaded e ans var h b (k + 1)) := by
  refine .write (fun s env henv ⟨hs, hm⟩ => ⟨Hashing.ofCoreAndAnswers s env henv hs, hm⟩) fun s hb ⟨hs, hm⟩ => ?_
  rw [hostWrite_m hb hk]
  refine ⟨hb, ⟨hs.err, hs.answers, hs.hash⟩, fun j hj hjk => ?_⟩
  by_cases hkj : k = j
  · subst hkj
    simp [List.getD_eq_getElem?_getD, hk]
  · exact (Vector.getElem_set_ne hk hj hkj).trans (hm j hj (by omega))

/-- The accesses that write a block into `M`. -/
theorem hostTriple_loadBlock (b : Vector Word 16) :
    HostTriple (Hashing e ans var h) (loadBlock b) (fun s => Hashing e ans var h s ∧ s.m = b) :=
  (HostTriple.range fun _ => hostTriple_loadWord b).mono (fun _ hs => ⟨hs, fun _ _ h0 => absurd h0 (Nat.not_lt_zero _)⟩)
    fun _ ⟨hs, hm⟩ => ⟨hs, Vector.ext fun j hj => hm j hj hj⟩

/-- The accesses for all blocks. -/
theorem hostTriple_blocks (bs : List (Vector Word 16)) :
    HostTriple (Hashing e ans var h) (bs.flatMap fun b => loadBlock b ++ [cmdOp .block, .wait])
      (Hashing e ans var (bs.foldl (compress var) h)) := by
  induction bs generalizing h with
  | nil => exact .nil
  | cons b bs ih => exact ((hostTriple_loadBlock b).append (hostTriple_block b)).append ih

/-- What a read of `H[k]` tells the host. -/
theorem readWindow_h {s : State} (hb : s.busy = false) {k : Nat} (hk : k < 8) :
    s.readWindow (registerAt (Offset.ofByteOffset (0x80 + 4 * k))) = some s.h[k] := by
  rw [registerAt_eq_of_byteOffset (r := .h ⟨k, hk⟩) (congrArg some (by rw [byteOffset_ofByteOffset (by omega) (by omega)]))]
  exact if_neg (by simp [hb])

/-- `Hashing`, and since `ans` the host has been told as much as `k` reads tell: the first `k` words of the hash state, unless an
error is recorded. -/
def HashingRead (e : Bool) (ans : List Word) (var : BitVec 3) (h : Vector Word 8) (k : Nat) (s : State) : Prop :=
  ∃ words, Hashing e (ans ++ words) var h s ∧ (e = false → words = h.toList.take k)

theorem hostTriple_readWord {k : Nat} (hk : k < 8) :
    HostTriple (HashingRead e ans var h k) [.read (Offset.ofByteOffset (0x80 + 4 * k))] (HashingRead e ans var h (k + 1)) := by
  refine .read fun s x env hb ⟨words, hs, hwords⟩ hx henv => ?_
  rw [readWindow_h hb hk, Option.some.injEq] at hx
  refine ⟨words ++ [x], ⟨hs.err, ?_, hs.hash⟩, fun he => ?_⟩
  · rw [henv, hs.answers, List.append_assoc]
  · obtain ⟨-, -, -, hh⟩ := hs.hash he
    rw [hwords he, ← hx, hh, List.take_succ_eq_append_getElem (by simpa using hk)]
    rfl

/-- What the procedure ends with: its answers form the digest of the hash state, or nothing under ERR. -/
def DigestRead (e : Bool) (ans : List Word) (var : BitVec 3) (h : Vector Word 8) (s : State) : Prop :=
  ∃ words, s.env.answers = ans ++ words ∧ digestFromAnswers words = if e = true then none else some (digestBytes var h)

/-- The reads of the hash state and of STATUS. -/
theorem hostTriple_reads :
    HostTriple (Hashing e ans var h)
      ((List.range (digestWords var).toNat).map (fun i => .read (Offset.ofByteOffset (0x80 + 4 * i)))
        ++ [.read (Offset.ofByteOffset 0x04)]) (DigestRead e ans var h) := by
  have hwords := HostTriple.range (P := HashingRead e ans var h) fun k (hk : k < (digestWords var).toNat) =>
    hostTriple_readWord (lt_of_lt_of_le hk (digestWords_le var))
  refine .append (hwords.mono (fun s hs => ⟨[], by simpa using hs, fun _ => rfl⟩) fun _ => id) (.read ?_)
  intro s x env hb ⟨words, hs, hread⟩ hx henv
  obtain rfl : s.statusWord = x := Option.some.inj hx
  refine ⟨words ++ [s.statusWord], by rw [henv, hs.answers, List.append_assoc], ?_⟩
  rw [digestFromAnswers_append_status, State.statusWord_err, hs.err]
  cases e with
  | true => rfl
  | false => rw [hread rfl]; rfl

/-- The whole procedure. -/
theorem hostTriple_digestProgram {msg : List Byte} {ops : List HostOp} (hops : digestProgram var msg = some ops) :
    ∃ h, HostTriple (fun s => s.err = e ∧ s.env.answers = ans) ops (DigestRead e ans var h)
      ∧ digest var msg = some (digestBytes var h) := by
  unfold digestProgram at hops
  split at hops
  next hdomain =>
    cases hops
    obtain ⟨hvar, -⟩ := Bool.and_eq_true_iff.mp hdomain
    refine ⟨_, ?_, if_pos hdomain⟩
    rw [List.append_assoc]
    exact ((hostTriple_init hvar).append (hostTriple_blocks _)).append hostTriple_reads
  next => cases hops

end

end Sys2Proof.Machine

namespace Sys2Proof.Proofs

open Sys2Proof.Machine Sys2Proof.Claims

/-- Settles O44, register by register of the map; an unreliable offset has no word of its own while busy. -/
theorem hostReadReturnsTheMappedRegister : Obligations.HostReadReturnsTheMappedRegister := by
  unfold Obligations.HostReadReturnsTheMappedRegister
  intro s o
  have hread (r : Register) (x : Word) (k : Nat) (hk : r.byteOffset = some k) (hr : s.readWindow r = some x)
      (ho : 4 * o.toNat = k) : ReadsAs s o x := readsAs_at r (by rw [hk, ho]) hr
  refine ⟨hread .cmd 0 _ rfl rfl, hread .status _ _ rfl rfl, fun h18 h3C => ?_, fun hb hu => ?_, fun hb => ?_⟩
  · exact readsAs_of_readWindow (by rw [registerAt_of_unmapped o h18 h3C]; rfl)
  · simp only [State.hostRead, readWindow_of_unreliable hb hu]
  · have hidle {x : Word} : (if s.busy then none else some x) = some x := if_neg (by simp [hb])
    exact ⟨hread .opa _ _ rfl hidle, hread .opb _ _ rfl hidle, hread .opc _ _ rfl hidle, hread .result _ _ rfl hidle,
      fun j => hread (.m j) _ _ rfl hidle, fun i => hread (.h i) _ _ rfl hidle, fun i => hread (.v i) _ _ rfl hidle,
      fun j => hread (.s j) _ _ rfl hidle⟩

/-- Settles O49: the register stored into reads back, and no other offset is that register's. -/
theorem windowReadsBackWhatWasWritten : Obligations.WindowReadsBackWhatWasWritten := by
  unfold Obligations.WindowReadsBackWhatWasWritten
  intro s o p x hb ho
  have hs := stores_registerAt ho
  have hw := hostWrite_of_idle hb o x
  refine ⟨?_, fun hpo => ?_⟩
  · have hread : ReadsAs (s.hostWrite o x) o x :=
      readsAs_of_readWindow (by rw [hw, readWindow_writeRegister_same hs x hb])
    rw [hread, hostWrite_env]
  · have hmapped : registerAt o ≠ .unmapped := fun h => by simp [h, State.Stores] at hs
    have hne : registerAt p ≠ registerAt o := fun h => hpo (eq_of_registerAt_eq h hmapped)
    exact hostRead_env_congr (hostWrite_env s o x) (by rw [hw, readWindow_writeRegister_of_ne hs x hne])

/-- Settles O45. -/
theorem cmdWriteLatchesUnlessInError : Obligations.CmdWriteLatchesUnlessInError := by
  unfold Obligations.CmdWriteLatchesUnlessInError
  intro s x hb
  rw [hostWrite_cmd hb]
  refine ⟨cmdWrite_of_err, fun h => ⟨cmdWrite_latches h, ?_⟩⟩
  rw [cmdWrite_latches h, State.statusWord_busy]
  rfl

/-- Settles O47: each write is a write to the register of its offset. -/
theorem hostWriteStoresIntoWritableRegisters : Obligations.HostWriteStoresIntoWritableRegisters := by
  unfold Obligations.HostWriteStoresIntoWritableRegisters
  intro s o x hb
  have hwrite (r : Register) (k : Nat) (hk : r.byteOffset = some k) (ho : 4 * o.toNat = k) :
      s.hostWrite o x = s.writeRegister r x := hostWrite_at hb x (by rw [hk, ho])
  refine ⟨hwrite .opa _ rfl, hwrite .opb _ rfl, hwrite .opc _ rfl, fun j => hwrite (.m j) _ rfl, fun i ho => ?_⟩
  rw [hwrite (.h i) _ rfl ho]
  exact ⟨fun ha => writeRegister_h_of_inactive ha i x,
    fun ha => (writeRegister_h_of_active ha i x).trans (s.recordError_code .sequence)⟩

/-- Settles O48: none of these offsets is that of a register a write acts on. -/
theorem writesToReadOnlyAndUnmappedOffsetsAreIgnored : Obligations.WritesToReadOnlyAndUnmappedOffsetsAreIgnored := by
  unfold Obligations.WritesToReadOnlyAndUnmappedOffsetsAreIgnored
  intro s o x hb hrange
  rw [hostWrite_of_idle hb]
  obtain ho | ⟨hu, -⟩ := byteOffset_registerAt o
  · cases hr : registerAt o with
    | status | result | unmapped | v | s => rfl
    | cmd | opa | opb | opc | m | h => rw [hr, Register.byteOffset, Option.some.injEq] at ho; omega
  · rw [hu]
    rfl

/-- Settles O56, by a triple for each piece of the host's program: INIT, the words of a block, BLOCK, the reads. -/
theorem hostProcedureReturnsTheDigest : Obligations.HostProcedureReturnsTheDigest := by
  unfold Obligations.HostProcedureReturnsTheDigest
  intro var msg ops s hi hb hr hops hp
  obtain ⟨h, htriple, hdigest⟩ := hostTriple_digestProgram (e := s.err) (ans := s.env.answers) hops
  obtain ⟨s', ⟨n, hn⟩, hs', hp', hread⟩ := htriple s [] ⟨hi, hb, hr⟩ (by rw [hp, List.append_nil]) ⟨rfl, rfl⟩
  rw [hdigest]
  exact ⟨n, s', hn, hp', hs'.idle, hread⟩

/-- Settles O46: the write records code 6; a command goes on from the record as from none but for its own record, and a step of a
running BLOCK reads and writes no record. -/
theorem busyWriteRecordsSixAndTheCommandRunsOn : Obligations.BusyWriteRecordsSixAndTheCommandRunsOn := by
  unfold Obligations.BusyWriteRecordsSixAndTheCommandRunsOn
  intro s o x hb
  rw [hostWrite_of_busy hb]
  refine ⟨s.recordError_code _, fun s' h => ?_⟩
  rcases coreStep_cases h with ⟨hidle, -⟩ | ⟨hi, c, hp, he⟩ | ⟨hi, hp, ha, rfl⟩
  · simp [hb] at hidle
  · have ha := State.auto_eq_false_of_pending hi hp
    obtain ⟨r, hr, hafter⟩ := coreStep_of_pending_recordError .busyWrite hi hp he
    obtain ⟨hframe, hcode⟩ := hafter.code_kept
    exact ⟨r, hr, hframe, hcode, fun h => by simp [ha] at h⟩
  · obtain ⟨herr, hcode⟩ := State.autoStep_ignoresError.keeps s
    obtain ⟨hframe, hkept⟩ := (AfterError.kept (e := .busyWrite) herr hcode).code_kept
    exact ⟨_, coreStep_of_auto_recordError .busyWrite hi hp ha, hframe, hkept, fun _ => State.recordError_code _ _⟩

/-- Settles O51: the number of zeros and the reading of the length field, each by its lemma. -/
theorem paddingFillsWholeBlocks : Obligations.PaddingFillsWholeBlocks := by
  unfold Obligations.PaddingFillsWholeBlocks
  intro msg hmsg
  have hmod := add_padZeros_mod msg.length
  have hlen := pad_length msg
  exact ⟨padZeros msg.length, be64 (8 * msg.length), padZeros_le _, hmod, rfl, be64_length _, foldl_be64 hmsg,
    by omega, by omega⟩

/-- Settles O52. -/
theorem packingIsBigEndian : Obligations.PackingIsBigEndian := by
  unfold Obligations.PackingIsBigEndian
  exact ⟨fun b0 b1 b2 b3 => ⟨packWord_toNat b0 b1 b2 b3, be32_packWord b0 b1 b2 b3⟩, fun bytes j => by simp [packBlock]⟩

/-- Settles O53: the digest is that of a hash state inside the domain, and none outside it; the variants are three. -/
theorem digestHasItsVariantsLength : Obligations.DigestHasItsVariantsLength := by
  unfold Obligations.DigestHasItsVariantsLength
  intro var msg
  refine ⟨?_, by simp [digestProgram, inMessageDomain_iff, supported_iff, and_comm]⟩
  have hd : (digest var msg).map List.length
      = if supported var && inMessageDomain msg then some (4 * (digestWords var).toNat) else none := by
    unfold digest
    split
    · simp [digestBytes_length]
    · rfl
  rw [hd]
  clear hd
  by_cases hm : 8 * msg.length < 2 ^ 64
  · rw [inMessageDomain_iff.mpr hm, if_pos hm]
    revert var
    decide
  · have hm' : inMessageDomain msg = false := by simpa [inMessageDomain] using hm
    rw [hm', Bool.and_false, if_neg (by decide), if_neg hm]

end Sys2Proof.Proofs

/-! PROOFS. The obligations of 30_encoding: the opcode map, the decoder and the encoder, decode errors, the assembler, and WAIT. -/

-- ## Words and their fields (30_encoding R81, R82)

namespace Sys2Proof

/-- The bits a format lets be nonzero are those of its fields. -/
theorem Format.field_of_allowedMask_bit (f : Format) :
    ∀ i < 32, f.allowedMask.getLsbD i = true →
      i < 8 ∨ (f = .s ∧ 8 ≤ i ∧ i < 8 + 5) ∨ (f = .v ∧ 16 ≤ i ∧ i < 16 + 3) := by
  cases f <;> decide

theorem Format.wordWellFormed_eq_false_iff {f : Format} {c : Word} :
    f.wordWellFormed c = false ↔ c &&& ~~~ f.allowedMask ≠ 0 := by
  simp [Format.wordWellFormed]

/-- A word that is well-formed for a format is 0 outside the format's mask. -/
theorem Format.getLsbD_of_wordWellFormed {f : Format} {c : Word} (h : f.wordWellFormed c = true) {i : Nat} (hi : i < 32)
    (hm : f.allowedMask.getLsbD i = false) : c.getLsbD i = false := by
  have hmask : c &&& ~~~ f.allowedMask = 0 := by simpa [Format.wordWellFormed] using h
  have hbit := congrArg (fun w : Word => w.getLsbD i) hmask
  simpa only [BitVec.getLsbD_and, BitVec.getLsbD_not, hi, hm, decide_true, Bool.not_false, Bool.and_true,
    BitVec.ofNat_eq_ofNat, BitVec.getLsbD_zero] using hbit

/-- Two words that agree on a field agree on its bits. -/
theorem getLsbD_eq_of_extractLsb'_eq {c c' : Word} {start len : Nat} (h : c.extractLsb' start len = c'.extractLsb' start len)
    {i : Nat} (h₁ : start ≤ i) (h₂ : i < start + len) : c.getLsbD i = c'.getLsbD i := by
  have hbit := congrArg (fun x => x.getLsbD (i - start)) h
  have hlt : i - start < len := by omega
  simpa only [BitVec.getLsbD_extractLsb', hlt, decide_true, Bool.true_and, Nat.add_sub_cancel' h₁] using hbit

/-- A word that is well-formed for a format is determined by the fields the format has. -/
theorem Format.eq_of_fields_eq {f : Format} {c c' : Word} (hc : f.wordWellFormed c = true) (hc' : f.wordWellFormed c' = true)
    (hop : opcodeField c = opcodeField c') (hn : f = .s → shamtField c = shamtField c')
    (hv : f = .v → variantField c = variantField c') : c = c' := by
  apply BitVec.eq_of_getLsbD_eq
  intro i hi
  cases hm : f.allowedMask.getLsbD i with
  | false => rw [getLsbD_of_wordWellFormed hc hi hm, getLsbD_of_wordWellFormed hc' hi hm]
  | true =>
    obtain h8 | ⟨hf, hlo, hhi⟩ | ⟨hf, hlo, hhi⟩ := f.field_of_allowedMask_bit i hi hm
    · exact getLsbD_eq_of_extractLsb'_eq hop (Nat.zero_le i) (by omega)
    · exact getLsbD_eq_of_extractLsb'_eq (hn hf) hlo hhi
    · exact getLsbD_eq_of_extractLsb'_eq (hv hf) hlo hhi

-- ## No two words decode to one command (30_encoding R85, R90)

/-- A command of format S holds its SHAMT field, one of format V its VARIANT field. -/
theorem Mnemonic.fields_eq_of_instr_eq {row : Mnemonic} {n n' : BitVec 5} {var var' : BitVec 3}
    (h : row.instr n var = row.instr n' var') : (row.format = .s → n = n') ∧ (row.format = .v → var = var') := by
  cases row with
  | rotr | rotl | shr => injection h with hn; exact ⟨fun _ => hn, nofun⟩
  | init => injection h with hv; exact ⟨nofun, fun _ => hv⟩
  | _ => exact ⟨nofun, nofun⟩

/-- A decoded command is its row's, with the fields of the word. -/
theorem instr_of_decode {c : Word} {i : Instr} (h : decode c = .command i) :
    i.mnemonic.instr (shamtField c) (variantField c) = i := by
  rcases decode_cases c with ⟨-, he⟩ | ⟨row, -, ⟨-, hc⟩ | ⟨-, he⟩⟩
  · simp [he] at h
  · obtain rfl : row.instr (shamtField c) (variantField c) = i := by simpa [hc] using h
    rw [Mnemonic.mnemonic_instr]
  · simp [he] at h

theorem eq_of_decode_eq_command {c c' : Word} {i : Instr} (h : decode c = .command i) (h' : decode c' = .command i) :
    c = c' := by
  obtain ⟨hop, hwf⟩ := opcodeField_of_decode h
  obtain ⟨hop', hwf'⟩ := opcodeField_of_decode h'
  obtain ⟨hn, hv⟩ := Mnemonic.fields_eq_of_instr_eq ((instr_of_decode h).trans (instr_of_decode h').symm)
  exact Format.eq_of_fields_eq hwf hwf' (hop.trans hop'.symm) hn hv

-- ## The words of the commands with a field (30_encoding R83, R85)

theorem encode_rotr_toNat (n : BitVec 5) : (encode (.rotr n)).toNat = 0x06 + n.toNat * 2 ^ 8 := by revert n; decide
theorem encode_rotl_toNat (n : BitVec 5) : (encode (.rotl n)).toNat = 0x07 + n.toNat * 2 ^ 8 := by revert n; decide
theorem encode_shr_toNat (n : BitVec 5) : (encode (.shr n)).toNat = 0x08 + n.toNat * 2 ^ 8 := by revert n; decide
theorem encode_init_toNat (var : BitVec 3) : (encode (.init var)).toNat = 0x20 + var.toNat * 2 ^ 16 := by revert var; decide

/-- The word of a command's number decodes to the command. -/
theorem decode_ofNat_of_encode_toNat {i : Instr} {k : Nat} (h : (encode i).toNat = k) :
    decode (BitVec.ofNat 32 k) = .command i := by
  rw [← h, BitVec.ofNat_toNat, BitVec.setWidth_eq, decode_encode]

theorem decode_map_encode (is : List Instr) : (is.map encode).map decode = is.map Decoded.command := by
  rw [List.map_map]
  exact List.map_congr_left fun i _ => decode_encode i

-- ## The unassigned opcodes (30_encoding R86, R87)

/-- The ranges of R86 are the OPCODEs of no row of the map. -/
theorem unassigned_iff_forall_opcode_ne (op : BitVec 8) : Claims.Unassigned op ↔ ∀ row : Mnemonic, row.opcode ≠ op := by
  have hmem : (∀ row : Mnemonic, row.opcode ≠ op) ↔ ∀ row ∈ opcodeMap, row.opcode ≠ op :=
    ⟨fun h row _ => h row, fun h row => h row (mem_opcodeMap row)⟩
  rw [hmem]
  simp only [opcodeMap, List.cons_append, List.nil_append, List.forall_mem_cons, List.not_mem_nil, false_imp_iff, implies_true,
    and_true, Mnemonic.opcode]
  bv_omega

theorem maskOf_opcode (row : Mnemonic) : Claims.maskOf row.opcode = row.format.allowedMask := by
  cases row <;> rfl

theorem decode_of_unassigned {c : Word} (h : Claims.Unassigned (c.extractLsb' 0 8)) : decode c = .error .illegalOpcode := by
  rcases decode_cases c with ⟨-, hd⟩ | ⟨row, hrow, -⟩
  · exact hd
  · exact absurd hrow ((unassigned_iff_forall_opcode_ne _).mp h row)

theorem exists_opcode_of_assigned {op : BitVec 8} (h : ¬ Claims.Unassigned op) : ∃ row : Mnemonic, row.opcode = op := by
  simpa [unassigned_iff_forall_opcode_ne] using h

theorem decode_of_reservedBits {c : Word} (h : ¬ Claims.Unassigned (c.extractLsb' 0 8))
    (hm : c &&& ~~~ Claims.maskOf (c.extractLsb' 0 8) ≠ 0) : decode c = .error .reservedBits := by
  obtain ⟨row, hrow⟩ := exists_opcode_of_assigned h
  rw [← hrow, maskOf_opcode] at hm
  exact decode_of_not_wellFormed c row hrow.symm (Format.wordWellFormed_eq_false_iff.mpr hm)

-- ## The assembler (30_encoding R95)

theorem AsmLine.assemble_isSome_iff (a : AsmLine) : a.assemble.isSome = true ↔ a.wellFormed = true := by
  unfold AsmLine.assemble
  cases a.wellFormed <;> simp

theorem AsmLine.assemble_rotr {k : Nat} (hk : k ≤ 31) :
    (AsmLine.mk .rotr (some (.number k))).assemble = some (.rotr (BitVec.ofNat 5 k)) :=
  if_pos (decide_eq_true hk)

theorem AsmLine.assemble_init {k : Nat} (hk : k ≤ 7) :
    (AsmLine.mk .init (some (.number k))).assemble = some (.init (BitVec.ofNat 3 k)) :=
  if_pos (decide_eq_true hk)

/-- A number for a row of format S or V is accepted up to the largest value of the field. -/
theorem AsmLine.assemble_number_isSome_iff {op : Mnemonic} {k : Nat} :
    (op.format = .s → ((AsmLine.mk op (some (.number k))).assemble.isSome = true ↔ k ≤ 31))
      ∧ (op.format = .v → ((AsmLine.mk op (some (.number k))).assemble.isSome = true ↔ k ≤ 7)) := by
  simp only [AsmLine.assemble_isSome_iff]
  refine ⟨fun hf => ?_, fun hf => ?_⟩ <;> simp [AsmLine.wellFormed, hf]

end Sys2Proof

namespace Sys2Proof.Machine

-- ## The core step of a word that is no command (30_encoding R86, R87)

theorem State.takePending_eq_taken (s : State) : s.takePending = Claims.taken s := rfl

theorem execute_of_decodeError {c : Word} {e : DecodeError} (hd : decode c = .error e) (s : State) :
    execute c s = .next (s.recordError (.ofDecode e)) := by
  simp only [execute, hd, raiseError_eq]

theorem coreStep_of_decodeError {s : State} {c : Word} {e : DecodeError} (hi : s.Inv) (hp : s.pending = some c)
    (hd : decode c = .error e) : coreStep s = .next (Claims.recorded (CmdError.ofDecode e).code (Claims.taken s)) := by
  rw [coreStep_of_pending hi hp, execute_of_decodeError hd, State.recordError_code, State.takePending_eq_taken]

-- ## Core steps until the core is idle (10_state R40)

/-- `RunsToIdle n s s'`: from `s` the core takes `n` steps, busy before each of them, and is then idle, in `s'`. -/
inductive RunsToIdle : Nat → State → State → Prop
  | idle {s : State} (hb : s.busy = false) : RunsToIdle 0 s s
  | busy {n : Nat} {s s₁ s' : State} (hb : s.busy = true) (hc : coreStep s = .next s₁) (h : RunsToIdle n s₁ s') :
      RunsToIdle (n + 1) s s'

section
variable {n : Nat} {s s' : State}

theorem RunsToIdle.busy_eq_false (h : RunsToIdle n s s') : s'.busy = false := by
  induction h with
  | idle hb => exact hb
  | busy _ _ _ ih => exact ih

theorem coreSteps_succ_of_coreStep {s₁ : State} (hc : coreStep s = .next s₁) : coreSteps (n + 1) s = coreSteps n s₁ := by
  simp only [coreSteps, hc, andThen]

theorem RunsToIdle.coreSteps_eq (h : RunsToIdle n s s') : coreSteps n s = .next s' := by
  induction h with
  | idle _ => rfl
  | busy _ hc _ ih => rw [coreSteps_succ_of_coreStep hc, ih]

theorem RunsToIdle.busy_before (h : RunsToIdle n s s') : ∀ k < n, ∃ r, coreSteps k s = .next r ∧ r.busy = true := by
  induction h with
  | idle _ => exact fun k hk => absurd hk (Nat.not_lt_zero k)
  | @busy n s s₁ _ hb hc _ ih =>
    intro k hk
    cases k with
    | zero => exact ⟨s, rfl, hb⟩
    | succ k =>
      rw [coreSteps_succ_of_coreStep hc]
      exact ih k (Nat.lt_of_succ_lt_succ hk)

/-- With the default order of turns (log entry 1) a WAIT lets the core run to its end, and then polls once (30_encoding R98). -/
theorem RunsToIdle.runSteps_wait (h : RunsToIdle n s s') {rest : List HostOp} (ht : s.env.turns = [])
    (hp : s.env.program = .wait :: rest) : runSteps (n + 1) s = .next { s' with env := { s.env with program := rest } } := by
  induction h with
  | @idle s hb =>
    have hpoll : step s = .next (s.nextAccess rest) := by
      simp only [step, takeTurn, ht, hb, reduceCtorEq, if_false, hostTurn_of_idle_wait hb hp]
    simp only [runSteps, hpoll, andThen]
    rfl
  | @busy n s s₁ s' hb hc _ ih =>
    have henv := coreStep_env hc
    rw [← henv] at ht hp ⊢
    rw [← ih ht hp, runSteps, step_of_noTurns (henv ▸ ht) hb, hc, andThen]

end

@[simp] theorem State.recordError_busy (s : State) (e : CmdError) : (s.recordError e).busy = s.busy := by
  simp [State.busy]

/-- After a command the core is idle, unless the command is a BLOCK that starts. -/
theorem Effect.idle_or_block {i : Instr} {s s' : State} (h : Effect s i s') (hb : s.busy = false) :
    s'.busy = false ∨ s' = { s.beginStep with auto := true } := by
  cases h with
  | block => exact .inr rfl
  | error i e => exact .inl ((s.recordError_busy e).trans hb)
  | sreset => exact .inl rfl
  | _ => exact .inl hb

theorem State.busy_of_auto {s : State} (ha : s.auto = true) : s.busy = true := by simp [State.busy, ha]

/-- A running BLOCK: the rounds that are left, and the end. -/
theorem runsToIdle_of_auto {n : Nat} {s : State} (hi : s.Inv) (hp : s.pending = none) (ha : s.auto = true)
    (hn : s.t.toNat + n = s.rounds) : ∃ s', RunsToIdle (n + 1) s s' := by
  induction n generalizing s with
  | zero =>
    have hend : s.autoStep = { s.endStep with auto := false } := if_neg (by omega)
    have hidle : s.autoStep.busy = false := by simp [hend, State.busy, hp]
    exact ⟨_, .busy (State.busy_of_auto ha) (coreStep_of_auto hi hp ha) (.idle hidle)⟩
  | succ n ih =>
    have ht : s.t.toNat < s.rounds := by omega
    have hround : s.autoStep = s.roundStep := if_pos ht
    have hc : coreStep s = .next s.roundStep := hround ▸ coreStep_of_auto hi hp ha
    have hn' : s.roundStep.t.toNat + n = s.rounds := by
      rw [State.roundStep_t_toNat ht]
      omega
    obtain ⟨s', hrun⟩ := ih (coreStep_keeps_inv hi hc) hp ha hn'
    exact ⟨s', .busy (State.busy_of_auto ha) hc hrun⟩

/-- A latched word: one step, or a whole BLOCK. -/
theorem runsToIdle_of_pending {s : State} {c : Word} (hi : s.Inv) (hp : s.pending = some c) :
    ∃ n ≤ s.rounds + 2, ∃ s', RunsToIdle n s s' := by
  have hb : s.busy = true := by simp [State.busy, hp]
  have hb₁ : s.takePending.busy = false := by simp [State.busy, State.auto_eq_false_of_pending hi hp]
  obtain ⟨s₁, hs₁⟩ := execute_answers_next c s.takePending
  have hc : coreStep s = .next s₁ := (coreStep_of_pending hi hp).trans hs₁
  have hcases : s₁.busy = false ∨ s₁ = { s.takePending.beginStep with auto := true } := by
    rcases coreStep_effect hc with ⟨hidle, -⟩ | ⟨-, c', -, ⟨i, -, heff⟩ | ⟨e, -, rfl⟩⟩ | ⟨-, hnone, -⟩
    · simp [hb] at hidle
    · exact heff.idle_or_block hb₁
    · exact .inl ((State.recordError_busy _ _).trans hb₁)
    · simp [hp] at hnone
  obtain hidle | rfl := hcases
  · exact ⟨1, by omega, s₁, .busy hb hc (.idle hidle)⟩
  · obtain ⟨s', hrun⟩ := runsToIdle_of_auto (n := s.rounds) (coreStep_keeps_inv hi hc) rfl rfl (Nat.zero_add _)
    exact ⟨_, le_rfl, s', .busy hb hc hrun⟩

/-- From the invariants the core is idle after at most N + 2 steps. -/
theorem exists_runsToIdle {s : State} (hi : s.Inv) : ∃ n ≤ s.rounds + 2, ∃ s', RunsToIdle n s s' := by
  cases hp : s.pending with
  | some c => exact runsToIdle_of_pending hi hp
  | none =>
    cases ha : s.auto with
    | false => exact ⟨0, Nat.zero_le _, s, .idle (s.busy_eq_false_iff.mpr ⟨hp, ha⟩)⟩
    | true =>
      have ht := State.t_le_rounds_of_active hi (State.active_of_auto hi ha)
      obtain ⟨s', hrun⟩ := runsToIdle_of_auto hi hp ha (Nat.add_sub_cancel' ht)
      exact ⟨_, by omega, s', hrun⟩

end Sys2Proof.Machine

namespace Sys2Proof.Proofs

open Sys2Proof.Machine Sys2Proof.Claims

/-- Settles O2: the decoder reads back an encoded command, and no two words decode to one command. -/
theorem decodeReadsExactlyTheEncodedWord : Obligations.DecodeReadsExactlyTheEncodedWord := by
  unfold Obligations.DecodeReadsExactlyTheEncodedWord
  intro c i
  constructor
  · exact eq_of_decode_eq_command (decode_encode i)
  · rintro rfl
    exact decode_encode i

/-- Settles O4. -/
theorem illegalOpcodeRecordsCodeOne : Obligations.IllegalOpcodeRecordsCodeOne := by
  unfold Obligations.IllegalOpcodeRecordsCodeOne
  intro s c hi hp hop
  exact coreStep_of_decodeError hi hp (decode_of_unassigned hop)

/-- Settles O5. -/
theorem reservedBitsRecordCodeTwo : Obligations.ReservedBitsRecordCodeTwo := by
  unfold Obligations.ReservedBitsRecordCodeTwo
  intro s c hi hp hop hmask
  exact coreStep_of_decodeError hi hp (decode_of_reservedBits hop hmask)

/-- Settles O50: the core runs to idle, by the rounds a BLOCK has left, and meanwhile the host does not move. -/
theorem waitEndsWithTheCoreIdle : Obligations.WaitEndsWithTheCoreIdle := by
  unfold Obligations.WaitEndsWithTheCoreIdle
  intro s rest hi ht hp
  obtain ⟨n, hn, s', hrun⟩ := exists_runsToIdle hi
  exact ⟨n, hn, s', hrun.coreSteps_eq, hrun.busy_eq_false, hrun.busy_before, hrun.runSteps_wait ht hp⟩

/-- Settles O1: the words are the encodings of the commands. -/
theorem opcodeMapWordsDecode : Obligations.OpcodeMapWordsDecode := by
  unfold Obligations.OpcodeMapWordsDecode
  constructor <;> rw [← decode_map_encode] <;> rfl

/-- Settles O3: each word is the encoding of its command. -/
theorem immediatesAreTheirFields : Obligations.ImmediatesAreTheirFields := by
  unfold Obligations.ImmediatesAreTheirFields
  intro n var
  exact ⟨decode_ofNat_of_encode_toNat (encode_rotr_toNat n), decode_ofNat_of_encode_toNat (encode_rotl_toNat n),
    decode_ofNat_of_encode_toNat (encode_shr_toNat n), decode_ofNat_of_encode_toNat (encode_init_toNat var)⟩

/-- Settles O6. -/
theorem everyWordIsLatchedAndDecodes : Obligations.EveryWordIsLatchedAndDecodes := by
  unfold Obligations.EveryWordIsLatchedAndDecodes
  intro s c hp ha he
  have hb : s.busy = false := s.busy_eq_false_iff.mpr ⟨hp, ha⟩
  refine ⟨(hostWrite_cmd hb c).trans (cmdWrite_latches (.inl he)), ?_, fun hi => ?_⟩
  · rcases decode_cases c with ⟨-, hd⟩ | ⟨row, -, ⟨-, hd⟩ | ⟨-, hd⟩⟩
    · exact .inr (.inl hd)
    · exact .inl ⟨_, hd⟩
    · exact .inr (.inr hd)
  · rw [coreStep_of_pending (State.latch_inv hi hb c) rfl]
    exact execute_answers_next c _

/-- Settles O54: what is accepted is read off the row's format; within the bound the field holds the number. -/
theorem assemblerRefusesOperandsTheFieldCannotHold : Obligations.AssemblerRefusesOperandsTheFieldCannotHold := by
  unfold Obligations.AssemblerRefusesOperandsTheFieldCannotHold
  intro k
  refine ⟨fun op hop => ?_, AsmLine.assemble_number_isSome_iff.2 rfl, fun hk => ?_, fun hk => ?_⟩
  · have hf : op.format = .s := by
      revert op
      decide
    exact AsmLine.assemble_number_isSome_iff.1 hf
  · rw [AsmLine.assemble_rotr hk, Option.map_some, encode_rotr_toNat, BitVec.toNat_ofNat, Nat.mod_eq_of_lt (by omega)]
  · rw [AsmLine.assemble_init hk, Option.map_some, encode_init_toNat, BitVec.toNat_ofNat, Nat.mod_eq_of_lt (by omega)]

end Sys2Proof.Proofs

/-! PROOFS. The obligations of 40_word_alu: the value and the frame of each command, its latched words, and the unit laws. -/

namespace Sys2Proof.Machine

-- ## The shift and the unit laws (40_word_alu R107, R114)

theorem shr32_toNat (x : Word) (n : Nat) : (shr32 x n).toNat = x.toNat / 2 ^ n := by
  rw [shr32, BitVec.toNat_ushiftRight, Nat.shiftRight_eq_div_pow]

theorem getLsbD_shr32 (x : Word) (n i : Nat) : (shr32 x n).getLsbD i = x.getLsbD (i + n) := by
  rw [shr32, BitVec.getLsbD_ushiftRight, Nat.add_comm]

/-- The vacated bits are zero. -/
theorem getLsbD_shr32_of_ge (x : Word) {n i : Nat} (h : 32 - n ≤ i) : (shr32 x n).getLsbD i = false := by
  rw [getLsbD_shr32]
  exact BitVec.getLsbD_of_ge x (i + n) (by omega)

theorem rotl32_rotr32 (x : Word) {n : Nat} (hn : n < 32) : rotl32 (rotr32 x n) n = x := by
  apply BitVec.eq_of_getLsbD_eq
  intro i hi
  have hback : ((i + 32 - n) % 32 + n) % 32 = i := by omega
  rw [getLsbD_rotl32 _ hn hi, getLsbD_rotr32 _ hn (Nat.mod_lt _ (by decide)), hback]

/-- A rotate to the right is one to the left by what is left of 32; 5 bits hold that amount modulo 32. -/
theorem rotl32_neg (x : Word) (n : BitVec 5) : rotl32 x (0 - n).toNat = rotr32 x n.toNat := by
  apply BitVec.eq_of_getLsbD_eq
  intro i hi
  have hneg : (0 - n).toNat = (32 - n.toNat) % 32 := by bv_omega
  have hbit : (i + 32 - (0 - n).toNat) % 32 = (i + n.toNat) % 32 := by omega
  rw [getLsbD_rotl32 _ (0 - n).isLt hi, getLsbD_rotr32 _ n.isLt hi, hbit]

@[simp] theorem rotr32_zero (x : Word) : rotr32 x 0 = x := by simp [rotr32]
@[simp] theorem rotl32_zero (x : Word) : rotl32 x 0 = x := (rotl32_neg x 0).trans (rotr32_zero x)
@[simp] theorem shr32_zero (x : Word) : shr32 x 0 = x := by simp [shr32]

-- ## The latched words of a row of the opcode map (30_encoding R85, R90)

theorem Format.wordWellFormed_of_masked {f : Format} {c : Word} (h : c &&& ~~~ f.allowedMask = 0) :
    f.wordWellFormed c = true :=
  beq_iff_eq.mpr h

/-- The latched words of an OPCODE of the map: its command, with the word's fields, or RESERVED_BITS. -/
theorem latchedWord_of_row (row : Mnemonic) :
    Claims.LatchedWord row.opcode row.format.allowedMask (fun c => row.instr (shamtField c) (variantField c)) := by
  intro s c hi hp hop
  constructor
  · intro hm
    exact coreStep_of_command hi hp (decode_of_wellFormed c row hop (Format.wordWellFormed_of_masked hm))
  · intro hm
    exact coreStep_of_decodeError hi hp (decode_of_not_wellFormed c row hop (Format.wordWellFormed_eq_false_iff.mpr hm))

-- ## The operands a command reads (40_word_alu R110, 41_function_units R131)

section
variable {n : BitVec 5} {i : Instr}

theorem exec_of_mem_unaryCommands (h : i ∈ Claims.unaryCommands n) : ∃ f, ∀ s, exec i s = .next (unary f s) := by
  simp only [Claims.unaryCommands, List.mem_cons, List.not_mem_nil, or_false] at h
  rcases h with rfl | rfl | rfl | rfl | rfl | rfl | rfl | rfl
  · exact ⟨(~~~ ·), fun _ => rfl⟩
  · exact ⟨(rotr32 · n.toNat), fun _ => rfl⟩
  · exact ⟨(rotl32 · n.toNat), fun _ => rfl⟩
  · exact ⟨(shr32 · n.toNat), fun _ => rfl⟩
  · exact ⟨bsig0, fun _ => rfl⟩
  · exact ⟨bsig1, fun _ => rfl⟩
  · exact ⟨ssig0, fun _ => rfl⟩
  · exact ⟨ssig1, fun _ => rfl⟩

theorem exec_of_mem_binaryCommands (h : i ∈ Claims.binaryCommands) : ∃ f, ∀ s, exec i s = .next (binary f s) := by
  simp only [Claims.binaryCommands, List.mem_cons, List.not_mem_nil, or_false] at h
  rcases h with rfl | rfl | rfl | rfl
  · exact ⟨add32, fun _ => rfl⟩
  · exact ⟨(· &&& ·), fun _ => rfl⟩
  · exact ⟨(· ||| ·), fun _ => rfl⟩
  · exact ⟨(· ^^^ ·), fun _ => rfl⟩

theorem exec_of_mem_ternaryCommands (h : i ∈ Claims.ternaryCommands) : ∃ f, ∀ s, exec i s = .next (ternary f s) := by
  simp only [Claims.ternaryCommands, List.mem_cons, List.not_mem_nil, or_false] at h
  rcases h with rfl | rfl | rfl
  · exact ⟨ch, fun _ => rfl⟩
  · exact ⟨maj, fun _ => rfl⟩
  · exact ⟨parity, fun _ => rfl⟩

/-- Such a command writes RESULT and nothing else. -/
theorem exec_setResult_of_mem (h : i ∈ Claims.unaryCommands n ++ Claims.binaryCommands ++ Claims.ternaryCommands) (s : State) :
    ∃ x, exec i s = .next (s.setResult x) := by
  simp only [List.mem_append] at h
  obtain (h | h) | h := h
  · obtain ⟨f, hf⟩ := exec_of_mem_unaryCommands h
    exact ⟨_, hf s⟩
  · obtain ⟨f, hf⟩ := exec_of_mem_binaryCommands h
    exact ⟨_, hf s⟩
  · obtain ⟨f, hf⟩ := exec_of_mem_ternaryCommands h
    exact ⟨_, hf s⟩

end

-- ## The window after a write of RESULT (20_memory R51, R53)

theorem readWindow_setResult_of_ne (s : State) (x : Word) {r : Register} (h : r ≠ .result) :
    (s.setResult x).readWindow r = s.readWindow r := by
  cases r with
  | result => exact absurd rfl h
  | _ => rfl

theorem registerAt_ne_result {o : Offset} (h : 4 * o.toNat ≠ 0x14) : registerAt o ≠ .result := by
  intro hr
  obtain ho | ⟨hu, -⟩ := byteOffset_registerAt o
  · rw [hr, Register.byteOffset, Option.some.injEq] at ho
    exact h ho.symm
  · simp [hr] at hu

end Sys2Proof.Machine

namespace Sys2Proof.Proofs

open Sys2Proof.Machine Sys2Proof.Claims

/-- Settles O9. -/
theorem addWritesTheSumModuloTwoToThe32 : Obligations.AddWritesTheSumModuloTwoToThe32 := by
  unfold Obligations.AddWritesTheSumModuloTwoToThe32
  exact ⟨fun s => ⟨add32 s.opa s.opb, rfl, BitVec.toNat_add _ _⟩, latchedWord_of_row .add⟩

/-- Settles O10, each operator by the library's lemma on its bits. -/
theorem bitwiseCommandsWorkBitByBit : Obligations.BitwiseCommandsWorkBitByBit := by
  unfold Obligations.BitwiseCommandsWorkBitByBit
  refine ⟨fun s => ⟨?_, ?_, ?_, ?_⟩, latchedWord_of_row .and, latchedWord_of_row .or, latchedWord_of_row .xor,
    latchedWord_of_row .not⟩
  · exact ⟨s.opa &&& s.opb, rfl, fun _ _ => BitVec.getLsbD_and⟩
  · exact ⟨s.opa ||| s.opb, rfl, fun _ _ => BitVec.getLsbD_or⟩
  · exact ⟨s.opa ^^^ s.opb, rfl, fun _ _ => BitVec.getLsbD_xor⟩
  · refine ⟨~~~ s.opa, rfl, fun i hi => ?_⟩
    rw [BitVec.getLsbD_not, decide_eq_true hi, Bool.true_and]

/-- Settles O11: a shift amount of 5 bits is below 32. -/
theorem rotatesMoveEveryBit : Obligations.RotatesMoveEveryBit := by
  unfold Obligations.RotatesMoveEveryBit
  refine ⟨fun s n => ⟨?_, ?_⟩, latchedWord_of_row .rotr, latchedWord_of_row .rotl⟩
  · exact ⟨rotr32 s.opa n.toNat, rfl, fun _ hi => getLsbD_rotr32 _ n.isLt hi⟩
  · exact ⟨rotl32 s.opa n.toNat, rfl, fun _ hi => getLsbD_rotl32 _ n.isLt hi⟩

/-- Settles O12. -/
theorem shiftRightFillsWithZeros : Obligations.ShiftRightFillsWithZeros := by
  unfold Obligations.ShiftRightFillsWithZeros
  refine ⟨fun s n => ⟨shr32 s.opa n.toNat, rfl, shr32_toNat _ _, ?_, ?_⟩, latchedWord_of_row .shr⟩
  · exact fun _ _ => getLsbD_shr32 _ _ _
  · exact fun _ hi _ => getLsbD_shr32_of_ge _ hi

/-- Settles O13, each law from that of the operator the command uses. -/
theorem unitLawsOfRotatesShiftsAndAddition : Obligations.UnitLawsOfRotatesShiftsAndAddition := by
  unfold Obligations.UnitLawsOfRotatesShiftsAndAddition
  have hnext {s : State} {x y : Word} (h : x = y) :
      (.next (s.setResult x) : Host.Outcome State Fault Refusal) = .next { s with result := y } := by rw [h]; rfl
  refine ⟨fun s n => ⟨rotr32 s.opa n.toNat, rfl, ?_, ?_⟩, fun s ha hb => ?_, fun s => ⟨?_, ?_, ?_⟩⟩
  · exact hnext (rotl32_rotr32 s.opa n.isLt)
  · exact hnext (rotl32_neg s.opa n)
  · exact hnext (show s.opa + s.opb = 0 by rw [ha, hb]; rfl)
  · exact hnext (rotr32_zero s.opa)
  · exact hnext (rotl32_zero s.opa)
  · exact hnext (shr32_zero s.opa)

/-- Settles O17: the word is one function's, of the operands the command reads. -/
theorem aluAndUnitsReadOnlyTheirOperands : Obligations.AluAndUnitsReadOnlyTheirOperands := by
  unfold Obligations.AluAndUnitsReadOnlyTheirOperands
  intro s r n i ha hi
  obtain hi | ⟨hi, hb⟩ | ⟨hi, hb, hc⟩ := hi
  · obtain ⟨f, hf⟩ := exec_of_mem_unaryCommands hi
    exact ⟨f s.opa, hf s, by rw [hf r, ha]; rfl⟩
  · obtain ⟨f, hf⟩ := exec_of_mem_binaryCommands hi
    exact ⟨f s.opa s.opb, hf s, by rw [hf r, ha, hb]; rfl⟩
  · obtain ⟨f, hf⟩ := exec_of_mem_ternaryCommands hi
    exact ⟨f s.opa s.opb s.opc, hf s, by rw [hf r, ha, hb, hc]; rfl⟩

/-- Settles O18: the command writes RESULT only, and no other register of the window reads it. -/
theorem aluAndUnitsLeaveEveryOtherWindowWord : Obligations.AluAndUnitsLeaveEveryOtherWindowWord := by
  unfold Obligations.AluAndUnitsLeaveEveryOtherWindowWord
  intro s s' n i o hi ho _ h
  obtain ⟨x, hx⟩ := exec_setResult_of_mem hi s
  obtain rfl : s.setResult x = s' := by rw [hx] at h; injection h
  exact hostRead_env_congr (s.setResult_env x) (readWindow_setResult_of_ne s x (registerAt_ne_result ho))

end Sys2Proof.Proofs

/-! PROOFS. The obligations of 41_function_units: the bits of each unit's word, the frame, and the latched words. -/

namespace Sys2Proof.Machine

-- ## The units of three words (41_function_units R120 to R122, R130)

section
variable (x y z : Word) {i : Nat}

theorem getLsbD_ch (hi : i < 32) : (ch x y z).getLsbD i = if x.getLsbD i then y.getLsbD i else z.getLsbD i := by
  simp only [ch, BitVec.getLsbD_xor, BitVec.getLsbD_and, BitVec.getLsbD_not, hi, decide_true, Bool.true_and]
  cases x.getLsbD i with
  | true => exact Bool.xor_false _
  | false => exact Bool.false_xor _

/-- The exclusive or of the three pairwise products is set when at least two of the bits are. -/
theorem getLsbD_maj :
    (maj x y z).getLsbD i = decide (2 ≤ (x.getLsbD i).toNat + (y.getLsbD i).toNat + (z.getLsbD i).toNat) := by
  simp only [maj, BitVec.getLsbD_xor, BitVec.getLsbD_and]
  generalize x.getLsbD i = a, y.getLsbD i = b, z.getLsbD i = c
  revert a b c
  decide

theorem getLsbD_parity :
    (parity x y z).getLsbD i = decide (((x.getLsbD i).toNat + (y.getLsbD i).toNat + (z.getLsbD i).toNat) % 2 = 1) := by
  simp only [parity, BitVec.getLsbD_xor]
  generalize x.getLsbD i = a, y.getLsbD i = b, z.getLsbD i = c
  revert a b c
  decide

end

-- ## The units of one word: rotates and shifts joined by exclusive or (41_function_units R123 to R126, R130)

section
variable (x : Word) {a b c i : Nat}

/-- A shift to the right, with its vacated bits said in the value. -/
theorem getLsbD_shr32_eq_and : (shr32 x c).getLsbD i = (decide (i < 32 - c) && x.getLsbD (i + c)) := by
  by_cases h : i < 32 - c
  · rw [getLsbD_shr32, decide_eq_true h, Bool.true_and]
  · rw [getLsbD_shr32_of_ge x (Nat.not_lt.mp h), decide_eq_false h, Bool.false_and]

theorem getLsbD_rotr32_xor_rotr32 (ha : a < 32) (hb : b < 32) (hi : i < 32) :
    (rotr32 x a ^^^ rotr32 x b).getLsbD i = (x.getLsbD ((i + a) % 32) ^^ x.getLsbD ((i + b) % 32)) := by
  rw [BitVec.getLsbD_xor, getLsbD_rotr32 x ha hi, getLsbD_rotr32 x hb hi]

theorem getLsbD_xor_three_rotates (ha : a < 32) (hb : b < 32) (hc : c < 32) (hi : i < 32) :
    (rotr32 x a ^^^ rotr32 x b ^^^ rotr32 x c).getLsbD i
      = ((x.getLsbD ((i + a) % 32) ^^ x.getLsbD ((i + b) % 32)) ^^ x.getLsbD ((i + c) % 32)) := by
  rw [BitVec.getLsbD_xor, getLsbD_rotr32_xor_rotr32 x ha hb hi, getLsbD_rotr32 x hc hi]

theorem getLsbD_xor_two_rotates_shift (ha : a < 32) (hb : b < 32) (hi : i < 32) :
    (rotr32 x a ^^^ rotr32 x b ^^^ shr32 x c).getLsbD i
      = ((x.getLsbD ((i + a) % 32) ^^ x.getLsbD ((i + b) % 32)) ^^ (decide (i < 32 - c) && x.getLsbD (i + c))) := by
  rw [BitVec.getLsbD_xor, getLsbD_rotr32_xor_rotr32 x ha hb hi, getLsbD_shr32_eq_and]

end

end Sys2Proof.Machine

namespace Sys2Proof.Proofs

open Sys2Proof.Machine Sys2Proof.Claims

/-- Settles O14, each unit by the lemma on its bits. -/
theorem threeInputUnitsWorkBitByBit : Obligations.ThreeInputUnitsWorkBitByBit := by
  unfold Obligations.ThreeInputUnitsWorkBitByBit
  refine ⟨fun s => ⟨?_, ?_, ?_⟩, latchedWord_of_row .ch, latchedWord_of_row .maj, latchedWord_of_row .parity⟩
  · exact ⟨ch s.opa s.opb s.opc, rfl, fun _ hi => getLsbD_ch _ _ _ hi⟩
  · exact ⟨maj s.opa s.opb s.opc, rfl, fun _ _ => getLsbD_maj _ _ _⟩
  · exact ⟨parity s.opa s.opb s.opc, rfl, fun _ _ => getLsbD_parity _ _ _⟩

/-- Settles O15: the units are `getLsbD_xor_three_rotates` at their amounts. -/
theorem bigSigmaUnitsXorThreeRotates : Obligations.BigSigmaUnitsXorThreeRotates := by
  unfold Obligations.BigSigmaUnitsXorThreeRotates
  refine ⟨fun s => ⟨?_, ?_⟩, latchedWord_of_row .bsig0, latchedWord_of_row .bsig1⟩
  · exact ⟨bsig0 s.opa, rfl, fun _ => getLsbD_xor_three_rotates _ (by decide) (by decide) (by decide)⟩
  · exact ⟨bsig1 s.opa, rfl, fun _ => getLsbD_xor_three_rotates _ (by decide) (by decide) (by decide)⟩

/-- Settles O16: the units are `getLsbD_xor_two_rotates_shift` at their amounts; a shift by 3 vacates the bits from 29, one
by 10 those from 22. -/
theorem smallSigmaUnitsXorTwoRotatesAndAShift : Obligations.SmallSigmaUnitsXorTwoRotatesAndAShift := by
  unfold Obligations.SmallSigmaUnitsXorTwoRotatesAndAShift
  refine ⟨fun s => ⟨?_, ?_⟩, latchedWord_of_row .ssig0, latchedWord_of_row .ssig1⟩
  · exact ⟨ssig0 s.opa, rfl, fun _ => getLsbD_xor_two_rotates_shift _ (by decide) (by decide)⟩
  · exact ⟨ssig1 s.opa, rfl, fun _ => getLsbD_xor_two_rotates_shift _ (by decide) (by decide)⟩

end Sys2Proof.Proofs

/-! PROOFS. The obligations of 42_compression: the block in progress, the commands of a block, the schedule, and the constants. -/

namespace Sys2Proof.Machine

-- ## The block in progress (42_compression R150, R153, R165), event by event

/-- `Claims.BlockInProgress` with the whole window in one equation. -/
theorem blockInProgress_iff {b : Vector Word 16} {s : State} :
    Claims.BlockInProgress b s ↔ (s.active = true → s.s = scheduleWindow s.variant b s.t.toNat
      ∧ s.v = roundsFrom s.variant (scheduleList s.variant b s.t.toNat) (beginVars s.variant s.h) s.t.toNat) := by
  have hwindow : (∀ j : Fin 16, s.s[j] = scheduleWord s.variant b (s.t.toNat + j))
      ↔ s.s = scheduleWindow s.variant b s.t.toNat := by
    constructor
    · intro h
      exact Vector.ext fun j hj => (h ⟨j, hj⟩).trans (scheduleWindow_getElem _ _ _ hj).symm
    · intro h j
      rw [h]
      exact scheduleWindow_getElem _ _ _ j.isLt
  rw [Claims.BlockInProgress, hwindow]

/-- One more round of a block, its words read from a schedule that is one longer. -/
theorem roundsFrom_scheduleList_succ (var : BitVec 3) (b : Vector Word 16) (v : Vector Word 8) (n : Nat) :
    roundsFrom var (scheduleList var b (n + 1)) v (n + 1)
      = transition var n (roundsFrom var (scheduleList var b n) v n) (scheduleWord var b n) := by
  have hlonger : ∀ t < n, (scheduleList var b (n + 1)).getD t 0 = (scheduleList var b n).getD t 0 := fun t ht =>
    scheduleList_getD_add var b (by omega) 1
  rw [roundsFrom_succ, roundsFrom_congr var v hlonger, scheduleList_getD var b (by omega)]

/-- The event from `s` to `s'` leaves a block in progress as it is, or leaves none. -/
def BlockUndisturbed (s s' : State) : Prop :=
  s'.active = true → s.active = true ∧ s'.variant = s.variant ∧ s'.t = s.t ∧ s'.h = s.h ∧ s'.v = s.v ∧ s'.s = s.s

theorem BlockUndisturbed.refl (s : State) : BlockUndisturbed s s := fun ha => ⟨ha, rfl, rfl, rfl, rfl, rfl⟩

theorem blockUndisturbed_recordError (s : State) (e : CmdError) : BlockUndisturbed s (s.recordError e) := by
  simp [BlockUndisturbed]

theorem blockUndisturbed_of_inactive {s s' : State} (ha : s'.active = false) : BlockUndisturbed s s' :=
  fun ha' => by simp [ha] at ha'

/-- Writes of the operands, `M` and CMD do not reach the block; one of `H` is refused while a block is active (20_memory R56). -/
theorem blockUndisturbed_hostWrite (s : State) (o : Offset) (x : Word) : BlockUndisturbed s (s.hostWrite o x) := by
  rcases hostWrite_cases s o x with h | ⟨e, h⟩ | ⟨-, h⟩ | h | h | h | ⟨j, h⟩ | ⟨i, ha, h⟩ <;> rw [h]
  case inr.inl => exact blockUndisturbed_recordError s e
  case inr.inr.inr.inr.inr.inr.inr => exact blockUndisturbed_of_inactive ha
  all_goals exact .refl s

theorem blockUndisturbed_hostTurn (s : State) : BlockUndisturbed s s.hostTurn := by
  rcases hostTurn_cases s with h | ⟨rest, h⟩ | ⟨rest, o, x, h⟩ | ⟨rest, o, h⟩ <;> rw [h]
  · exact .refl s
  · exact .refl s
  · exact blockUndisturbed_hostWrite (s.nextAccess rest) o x
  · obtain ⟨env, hr⟩ := hostRead_frame (s.nextAccess rest) o
    rw [hr]
    exact .refl s

theorem blockInProgress_beginStep (s : State) (auto : Bool) :
    Claims.BlockInProgress s.m { s.beginStep with auto := auto } :=
  blockInProgress_iff.mpr fun _ => ⟨(scheduleWindow_zero s.variant s.m).symm, rfl⟩

section
variable {b : Vector Word 16} {s : State} (h : Claims.BlockInProgress b s)
include h

theorem BlockUndisturbed.keeps {s' : State} (hu : BlockUndisturbed s s') :
    Claims.BlockInProgress (if s.active = true then b else s.m) s' := by
  intro ha'
  obtain ⟨ha, hvar, ht, hh, hv, hs⟩ := hu ha'
  rw [if_pos ha, hvar, ht, hh, hv, hs]
  exact h ha

theorem blockInProgress_roundStep (ha : s.active = true) (ht : s.t.toNat < s.rounds) :
    Claims.BlockInProgress b s.roundStep := by
  obtain ⟨hs, hv⟩ := blockInProgress_iff.mp h ha
  have hword : s.s[0] = scheduleWord s.variant b s.t.toNat := by
    rw [hs]
    exact scheduleWindow_getElem _ _ _ (by decide)
  rw [blockInProgress_iff, State.roundStep_t_toNat ht, State.roundStep_variant, State.roundStep_h, State.roundStep_s,
    State.roundStep_v, roundsFrom_scheduleList_succ, ← hv, hword, hs, scheduleAdvance_scheduleWindow]
  exact fun _ => ⟨rfl, rfl⟩

theorem Effect.keeps_blockInProgress {i : Instr} {s' : State} (heff : Effect s i s') (hi : s.Inv) :
    Claims.BlockInProgress (if s.active = true then b else s.m) s' := by
  cases heff with
  | nop | result | clrerr => exact (BlockUndisturbed.refl s).keeps h
  | error i e => exact (blockUndisturbed_recordError s e).keeps h
  | init | endBlock | sreset => exact BlockUndisturbed.keeps h (blockUndisturbed_of_inactive rfl)
  | block _ ha =>
    rw [if_neg (by simp [ha])]
    exact blockInProgress_beginStep s true
  | beginBlock _ ha =>
    rw [if_neg (by simp [ha])]
    exact blockInProgress_beginStep s s.auto
  | round ha ht =>
    rw [if_pos ha]
    exact blockInProgress_roundStep h ha (lt_of_le_of_ne (State.t_le_rounds_of_active hi ha) ht)

theorem coreStep_keeps_blockInProgress {s' : State} (hc : coreStep s = .next s') :
    Claims.BlockInProgress (if s.active = true then b else s.m) s' := by
  rcases coreStep_effect hc with ⟨-, rfl⟩ | ⟨hi, c, -, ⟨i, -, heff⟩ | ⟨e, -, rfl⟩⟩ | ⟨hi, -, hauto, rfl⟩
  · exact (BlockUndisturbed.refl _).keeps h
  · exact Effect.keeps_blockInProgress (s := s.takePending) h heff (State.takePending_inv hi)
  · exact BlockUndisturbed.keeps h (blockUndisturbed_recordError s.takePending _)
  · have ha := State.active_of_auto hi hauto
    by_cases ht : s.t.toNat < s.rounds
    · rw [State.autoStep, if_pos ht, if_pos ha]
      exact blockInProgress_roundStep h ha ht
    · rw [State.autoStep, if_neg ht]
      exact BlockUndisturbed.keeps h (blockUndisturbed_of_inactive rfl)

theorem step_keeps_blockInProgress {s' : State} (hstep : step s = .next s') :
    Claims.BlockInProgress (if s.active = true then b else s.m) s' := by
  rcases step_cases hstep with ⟨hc, -, -⟩ | ⟨rfl, -, -⟩ | ⟨rest, -, hc⟩ | ⟨rest, -, rfl⟩ | ⟨rest, -, rfl⟩
  · exact coreStep_keeps_blockInProgress h hc
  · exact (blockUndisturbed_hostTurn s).keeps h
  · exact coreStep_keeps_blockInProgress (s := s.nextTurn rest) h hc
  · exact BlockUndisturbed.keeps h (blockUndisturbed_hostTurn (s.nextTurn rest))
  · exact BlockUndisturbed.keeps h (blockUndisturbed_of_inactive rfl)

end

-- ## The commands of a block, failing and not (42_compression R169 to R174)

/-- A command that fails records its error and does nothing else; the converse of `exec_effect`'s case `error`. -/
theorem exec_of_failure {s : State} {i : Instr} {e : CmdError} (h : Failure s i e) :
    exec i s = .next (Claims.recorded e.code s) := by
  rw [← State.recordError_code]
  cases h with
  | badVariant var hvar => exact if_neg (by simp [hvar])
  | noVariant i hi hv => obtain rfl | rfl := hi <;> exact if_pos hv
  | blockActive i hi hv ha =>
    have hv' : ¬ s.valid = false := by simp [hv]
    obtain rfl | rfl := hi <;> exact (if_neg hv').trans (if_pos ha)
  | round h =>
    by_cases ha : s.active = false
    · exact if_pos ha
    · exact (if_neg ha).trans (if_pos (h.resolve_left ha))
  | endBlock h => exact if_pos h

section
variable {s : State}

theorem exec_init {var : BitVec 3} (h : supported var = true) : exec (.init var) s = .next (s.selectVariant var) := if_pos h

theorem exec_beginBlock (hv : s.valid = true) (ha : s.active = false) : exec .beginBlock s = .next s.beginStep :=
  (if_neg (by simp [hv])).trans (if_neg (by simp [ha]))

theorem exec_block (hv : s.valid = true) (ha : s.active = false) :
    exec .block s = .next { s.beginStep with auto := true } :=
  (if_neg (by simp [hv])).trans (if_neg (by simp [ha]))

theorem exec_round (ha : s.active = true) (ht : s.t.toNat ≠ s.rounds) : exec .round s = .next s.roundStep :=
  (if_neg (by simp [ha])).trans (if_neg ht)

theorem exec_endBlock (ha : s.active = true) (ht : s.t.toNat = s.rounds) : exec .endBlock s = .next s.endStep :=
  if_neg (by simp [ha, ht])

end

theorem supported_eq_false {var : BitVec 3} (h : 3 ≤ var.toNat) : supported var = false := by
  revert var
  decide

theorem State.beginStep_eq_begun (s : State) : s.beginStep = Claims.begun s := rfl

-- ## One round against the library's rotates (42_compression R144, R154, R161, R162)

theorem sha1Function_eq (t : Nat) (b c d : Word) :
    sha1Function t b c d
      = if t < 20 then Claims.chOr b c d else if 40 ≤ t ∧ t < 60 then Claims.majOr b c d else b ^^^ c ^^^ d := by
  unfold sha1Function
  by_cases h20 : t < 20
  · rw [if_pos h20, if_pos h20]
    exact ch_eq_or b c d
  · rw [if_neg h20, if_neg h20]
    by_cases h40 : t < 40
    · rw [if_pos h40, if_neg (by omega)]
      rfl
    · rw [if_neg h40]
      by_cases h60 : t < 60
      · rw [if_pos h60, if_pos ⟨by omega, h60⟩]
        exact maj_eq_or b c d
      · rw [if_neg h60, if_neg (by omega)]
        rfl

theorem sha1Transition_eq_sha1Round (t : Nat) (v : Vector Word 8) (w : Word) :
    sha1Transition t v w = Claims.sha1Round t v w := by
  simp only [sha1Transition, sha1Function_eq, rotl32_eq_rotateLeft _ (show 5 < 32 by decide),
    rotl32_eq_rotateLeft _ (show 30 < 32 by decide)]
  rfl

theorem bsig0_eq_rotateRight (x : Word) : bsig0 x = x.rotateRight 2 ^^^ x.rotateRight 13 ^^^ x.rotateRight 22 := by
  simp (disch := decide) only [bsig0, rotr32_eq_rotateRight]

theorem bsig1_eq_rotateRight (x : Word) : bsig1 x = x.rotateRight 6 ^^^ x.rotateRight 11 ^^^ x.rotateRight 25 := by
  simp (disch := decide) only [bsig1, rotr32_eq_rotateRight]

theorem ssig0_eq_sigma0 (x : Word) : ssig0 x = Claims.sigma0 x := by
  simp (disch := decide) only [ssig0, rotr32_eq_rotateRight]
  rfl

theorem ssig1_eq_sigma1 (x : Word) : ssig1 x = Claims.sigma1 x := by
  simp (disch := decide) only [ssig1, rotr32_eq_rotateRight]
  rfl

theorem sha2Transition_eq_sha2Round (t : Nat) (v : Vector Word 8) (w : Word) :
    sha2Transition t v w = Claims.sha2Round t v w := by
  simp only [sha2Transition, bsig0_eq_rotateRight, bsig1_eq_rotateRight, ch_eq_or, maj_eq_or]
  rfl

/-- The generator over the library's rotates (42_compression R151, R152, R154). -/
theorem newScheduleWord_eq (var : BitVec 3) (s : Vector Word 16) :
    newScheduleWord var s = if var = 0 then (s[13] ^^^ s[8] ^^^ s[2] ^^^ s[0]).rotateLeft 1
      else Claims.sigma1 s[14] + s[9] + Claims.sigma0 s[1] + s[0] := by
  simp only [newScheduleWord, rotl32_eq_rotateLeft _ (show 1 < 32 by decide), ssig0_eq_sigma0, ssig1_eq_sigma1]
  rfl

theorem scheduleAdvance_eq_windowNext (var : BitVec 3) (s : Vector Word 16) :
    scheduleAdvance var s = Claims.windowNext var s := by
  ext j hj : 1
  by_cases h15 : j < 15
  · rw [scheduleAdvance_of_lt var s h15]
    interval_cases j <;> rfl
  · obtain rfl : j = 15 := by omega
    rw [scheduleAdvance_last, newScheduleWord_eq]
    rfl

theorem transition_eq (var : BitVec 3) (t : Nat) (v : Vector Word 8) (w : Word) :
    transition var t v w = if var = 0 then Claims.sha1Round t v w else Claims.sha2Round t v w := by
  rw [transition, sha1Transition_eq_sha1Round, sha2Transition_eq_sha2Round]

-- ## The addition at the end (42_compression R164)

/-- The state words are all eight but SHA-1's last three (42_compression R160). -/
theorem lt_stateWords_iff (var : BitVec 3) (i : Fin 8) : i.val < stateWords var ↔ ¬ (var = 0 ∧ 5 ≤ i.val) := by
  unfold stateWords
  by_cases hvar : var = 0
  · rw [if_pos hvar, not_and, not_le]
    exact ⟨fun h _ => h, fun h => h hvar⟩
  · rw [if_neg hvar]
    exact iff_of_true i.isLt fun h => hvar h.1

theorem addState_getElem_toNat (var : BitVec 3) (h v : Vector Word 8) (i : Fin 8) :
    (addState var h v)[i].toNat
      = if var = 0 ∧ 5 ≤ i.val then h[i].toNat else (h[i].toNat + v[i].toNat) % 2 ^ 32 := by
  have hget : (addState var h v)[i] = if i.val < stateWords var then add32 h[i] v[i] else h[i] :=
    addState_getElem var h v i.isLt
  rw [hget]
  by_cases hlast : var = 0 ∧ 5 ≤ i.val
  · rw [if_neg (by rwa [lt_stateWords_iff, not_not]), if_pos hlast]
  · rw [if_pos ((lt_stateWords_iff var i).mpr hlast), if_neg hlast]
    exact BitVec.toNat_add _ _

-- ## The roots of the primes (42_compression R142)

/-- The square roots of the 9th to 16th prime times 2^64, rounded down: their low 32 bits are SHA-224's initial words. -/
def squareRoots64 : List Nat :=
  [0x4CBBB9D5DC1059ED8, 0x5629A292A367CD507, 0x59159015A3070DD17, 0x6152FECD8F70E5939]
    ++ [0x667332667FFC00B31, 0x68EB44A8768581511, 0x6DB0C2E0D64F98FA7, 0x747B5481DBEFA4FA4]

theorem squareRoots64_spec : ∀ i : Fin 8,
    (squareRoots64.getD i 0) ^ 2 ≤ Claims.primes.getD (8 + i) 0 * 2 ^ 128
      ∧ Claims.primes.getD (8 + i) 0 * 2 ^ 128 < (squareRoots64.getD i 0 + 1) ^ 2
      ∧ squareRoots64.getD i 0 % 2 ^ 32 = (initialHash 1)[i].toNat := by
  decide

-- ## Step mode, round by round (42_compression R153, R175)

/-- The state in step mode after BEGIN in `s` and `n` rounds: `blockAfter`, with AUTO as it was. -/
def State.steppedAfter (s : State) (n : Nat) : State := { s.blockAfter n with auto := s.auto }

/-- The state after END, once all rounds of the block begun in `s` are done. -/
def State.steppedDone (s : State) : State := { s.blockDone with active := false, t := 0 }

theorem State.steppedAfter_zero (s : State) : s.steppedAfter 0 = s.beginStep := by
  rw [State.steppedAfter, State.blockAfter_zero]
  rfl

theorem State.steppedAfter_roundStep {s : State} {n : Nat} (hn : n < s.rounds) :
    (s.steppedAfter n).roundStep = s.steppedAfter (n + 1) := by
  have hlt : (s.blockAfter n).t.toNat < (s.blockAfter n).rounds := by
    rw [State.blockAfter_t_toNat (Nat.le_of_lt hn)]
    exact hn
  have hround : (s.blockAfter n).roundStep = s.blockAfter (n + 1) := by
    rw [← State.autoStep_blockAfter hn, State.autoStep, if_pos hlt]
  rw [State.steppedAfter, State.steppedAfter, ← hround]
  rfl

theorem State.steppedAfter_endStep (s : State) : (s.steppedAfter s.rounds).endStep = s.steppedDone := rfl

theorem execAll_append {is js : List Instr} {s s' : State} (h : execAll is s = .next s') :
    execAll (is ++ js) s = execAll js s' := by
  induction is generalizing s with
  | nil => cases h; rfl
  | cons i is ih =>
    obtain ⟨s₁, hs₁⟩ := exec_answers_next i s
    simp only [List.cons_append, execAll, hs₁, andThen] at h ⊢
    exact ih h

theorem execAll_cons {i : Instr} {s s' : State} (h : exec i s = .next s') (is : List Instr) :
    execAll (i :: is) s = execAll is s' := by
  simp only [execAll, h, andThen]

theorem execAll_rounds {s : State} {n : Nat} (hn : n ≤ s.rounds) :
    execAll (List.replicate n .round) s.beginStep = .next (s.steppedAfter n) := by
  induction n with
  | zero => rw [State.steppedAfter_zero]; rfl
  | succ n ih =>
    have ht : (s.steppedAfter n).t.toNat ≠ (s.steppedAfter n).rounds := by
      rw [show (s.steppedAfter n).t.toNat = n from State.blockAfter_t_toNat (Nat.le_of_lt hn)]
      exact Nat.ne_of_lt hn
    rw [List.replicate_succ', execAll_append (ih (by omega)), execAll_cons (exec_round rfl ht),
      State.steppedAfter_roundStep hn]
    rfl

theorem exec_endBlock_steppedAfter (s : State) : exec .endBlock (s.steppedAfter s.rounds) = .next s.steppedDone := by
  rw [← State.steppedAfter_endStep]
  exact exec_endBlock rfl (State.blockAfter_t_toNat le_rfl)

/-- All of step mode: BEGIN, the rounds and END. -/
theorem execAll_stepMode {s : State} (hv : s.valid = true) (ha : s.active = false) :
    execAll (.beginBlock :: (List.replicate s.rounds .round ++ [.endBlock])) s = .next s.steppedDone := by
  rw [execAll_cons (exec_beginBlock hv ha), execAll_append (execAll_rounds le_rfl),
    execAll_cons (exec_endBlock_steppedAfter s)]
  rfl

theorem State.steppedDone_eq_blockDone {s : State} (hi : s.Inv) (ha : s.active = false) : s.steppedDone = s.blockDone := by
  obtain ⟨-, -, -, ⟨ht, -⟩, -⟩ := hi
  rw [State.steppedDone, State.blockDone, ← ha, ← ht ha]

/-- The core steps of a BLOCK after its first (42_compression R174). -/
theorem coreSteps_runBlock {s : State} (hi : s.Inv) (hb : s.busy = false) (hv : s.valid = true) (ha : s.active = false) :
    coreSteps (s.rounds + 1) { s.beginStep with auto := true } = .next s.blockDone := by
  have hstart : coreStep { s with pending := some (encode .block) } = .next { s.beginStep with auto := true } :=
    (coreStep_of_latched hi hb .block).trans (exec_block hv ha)
  have hrun := coreSteps_of_latched_block hi hb hv ha
  rwa [Nat.add_comm 1, coreSteps_succ_of_coreStep hstart] at hrun

end Sys2Proof.Machine

namespace Sys2Proof.Proofs

open Sys2Proof.Machine Sys2Proof.Claims

/-- Settles O55, by the events of each agent: a round takes the block on, BEGIN and BLOCK start one, INIT, END and the
resets leave none, and every other event leaves the block alone. -/
theorem everyStepKeepsTheBlockInProgress : Obligations.EveryStepKeepsTheBlockInProgress := by
  unfold Obligations.EveryStepKeepsTheBlockInProgress
  intro b s s' h hstep
  exact step_keeps_blockInProgress h hstep

/-- Settles O21. -/
theorem initSelectsTheVariantAndLoadsItsHash : Obligations.InitSelectsTheVariantAndLoadsItsHash := by
  unfold Obligations.InitSelectsTheVariantAndLoadsItsHash
  refine ⟨fun s => ⟨exec_init rfl, exec_init rfl, exec_init rfl, fun var hvar => ?_⟩, latchedWord_of_row .init⟩
  exact exec_of_failure (.badVariant var (supported_eq_false hvar))

/-- Settles O22. -/
theorem beginLoadsTheWorkingVariablesAndTheWindow : Obligations.BeginLoadsTheWorkingVariablesAndTheWindow := by
  unfold Obligations.BeginLoadsTheWorkingVariablesAndTheWindow
  refine ⟨fun s => ⟨?_, ?_, exec_beginBlock⟩, latchedWord_of_row .beginBlock⟩
  · exact fun hv => exec_of_failure (.noVariant _ (.inr rfl) hv)
  · exact fun hv ha => exec_of_failure (.blockActive _ (.inr rfl) hv ha)

/-- Settles O23: the round step, its transition and its window over the library's rotates. -/
theorem roundAdvancesVariablesWindowAndCounter : Obligations.RoundAdvancesVariablesWindowAndCounter := by
  unfold Obligations.RoundAdvancesVariablesWindowAndCounter
  refine ⟨fun s => ⟨?_, ?_, fun ha ht => ?_⟩, latchedWord_of_row .round⟩
  · exact fun ha => exec_of_failure (.round (.inl ha))
  · exact fun _ ht => exec_of_failure (.round (.inr ht))
  · have hcount : s.t + 1 = BitVec.ofNat 7 (s.t.toNat + 1) := by bv_omega
    rw [exec_round ha (Nat.ne_of_lt ht), State.roundStep, transition_eq, scheduleAdvance_eq_windowNext, hcount]

/-- Settles O24: the new hash state is `addState`'s, word by word. -/
theorem endAddsTheWorkingVariablesIntoTheHash : Obligations.EndAddsTheWorkingVariablesIntoTheHash := by
  unfold Obligations.EndAddsTheWorkingVariablesIntoTheHash
  refine ⟨fun s => ⟨fun h => exec_of_failure (.endBlock h), fun ha ht => ?_⟩, latchedWord_of_row .endBlock⟩
  exact ⟨addState s.variant s.h s.v, exec_endBlock ha ht, addState_getElem_toNat s.variant s.h s.v⟩

/-- Settles O25: a word of the recurrence is the generator's, from the window that holds the sixteen words before it. -/
theorem scheduleWordsSatisfyTheRecurrence : Obligations.ScheduleWordsSatisfyTheRecurrence := by
  unfold Obligations.ScheduleWordsSatisfyTheRecurrence
  intro var b
  refine ⟨fun j => scheduleWord_of_lt var b j.isLt, fun t ht hvar => ?_, fun t ht hvar => ?_⟩
  all_goals
    obtain ⟨n, rfl⟩ := Nat.exists_eq_add_of_le' ht
    rw [← newScheduleWord_scheduleWindow, newScheduleWord_eq]
    simp only [scheduleWindow_getElem, hvar, if_true, if_false]
    rfl

/-- Settles O26: the state after each round of step mode is known, its window with it. -/
theorem windowHoldsTheScheduleAtEveryRound : Obligations.WindowHoldsTheScheduleAtEveryRound := by
  unfold Obligations.WindowHoldsTheScheduleAtEveryRound
  intro s hv ha
  refine ⟨fun n hn => ⟨s.steppedAfter n, ?_, rfl, ?_, ?_⟩, s.steppedDone, execAll_stepMode hv ha, rfl, ?_⟩
  · rw [execAll_cons (exec_beginBlock hv ha), execAll_rounds hn]
  · exact State.blockAfter_t_toNat hn
  · exact fun j => scheduleWindow_getElem _ _ _ j.isLt
  · exact fun j => scheduleWindow_getElem _ _ _ j.isLt

/-- Settles O27: BLOCK's core steps and step mode's rounds go through the same states but for AUTO, and END's state is
the one that the last core step leaves. -/
theorem blockReplacesTheHashByItsCompression : Obligations.BlockReplacesTheHashByItsCompression := by
  unfold Obligations.BlockReplacesTheHashByItsCompression
  refine ⟨fun s => ⟨?_, ?_, exec_block⟩, latchedWord_of_row .block, fun s hi hp hauto hv ha => ⟨fun n hn => ?_, ?_⟩⟩
  · exact fun hv => exec_of_failure (.noVariant _ (.inl rfl) hv)
  · exact fun hv ha => exec_of_failure (.blockActive _ (.inl rfl) hv ha)
  · refine ⟨s.steppedAfter n, execAll_rounds hn, rfl, State.blockAfter_t_toNat hn, ?_⟩
    rw [← State.beginStep_eq_begun, ← State.blockAfter_zero]
    exact coreSteps_blockAfter hi hp hv hn
  · have hdone := State.steppedDone_eq_blockDone hi ha
    have hb := s.busy_eq_false_iff.mpr ⟨hp, hauto⟩
    refine ⟨s.steppedAfter s.rounds, s.blockDone, execAll_rounds le_rfl, ?_, coreSteps_runBlock hi hb hv ha, rfl⟩
    rw [exec_endBlock_steppedAfter, hdone]

/-- Settles O28: both end in `blockDone`. -/
theorem blockAgreesWithStepMode : Obligations.BlockAgreesWithStepMode := by
  unfold Obligations.BlockAgreesWithStepMode
  intro s hi hp hauto _ hv ha
  refine ⟨s.blockDone, ?_, ?_⟩
  · rw [exec_block hv ha]
    exact coreSteps_runBlock hi (s.busy_eq_false_iff.mpr ⟨hp, hauto⟩) hv ha
  · rw [← State.steppedDone_eq_blockDone hi ha]
    exact execAll_stepMode hv ha

/-- Settles O19: the integer parts of the roots are found by search; for the second 32 bits `squareRoots64` gives the roots. -/
theorem constantsAreTheStatedRootsOfPrimes : Obligations.ConstantsAreTheStatedRootsOfPrimes := by
  unfold Obligations.ConstantsAreTheStatedRootsOfPrimes
  refine ⟨?_, ?_, ?_⟩
  · unfold IsSquareRootFraction
    decide
  · exact fun i => ⟨squareRoots64.getD i 0, squareRoots64_spec i⟩
  · unfold IsCubeRootFraction
    decide

/-- Settles O20: in each range of rounds the tests of the functions' definitions are decided. -/
theorem sha1FunctionAndConstantFollowTheRound : Obligations.Sha1FunctionAndConstantFollowTheRound := by
  unfold Obligations.Sha1FunctionAndConstantFollowTheRound
  intro t b c d
  rw [sha1Function_eq]
  unfold k1
  refine ⟨fun _ => ?_, fun _ _ => ?_, fun _ _ => ?_, fun _ _ => ?_⟩ <;>
    simp (disch := omega) only [if_pos, if_neg, and_self]

end Sys2Proof.Proofs

/-! PROOFS. The obligations of 43_control: NOP, the two resets and CLRERR, their latched words, and the words taken in error. -/

namespace Sys2Proof.Machine

theorem hostWrite_cmd_of_err {s : State} {c : Word} (hb : s.busy = false) (he : s.err = true) (h1 : c ≠ 0x00000031)
    (h0 : c ≠ 0x00000030) : s.hostWrite 0 c = s :=
  (hostWrite_cmd hb c).trans (cmdWrite_of_err he h1 h0)

theorem hostWrite_cmd_latches {s : State} {c : Word} (hb : s.busy = false)
    (h : s.err = false ∨ c = 0x00000031 ∨ c = 0x00000030) : s.hostWrite 0 c = { s with pending := some c } :=
  (hostWrite_cmd hb c).trans (cmdWrite_latches h)

theorem step_of_resetTurn {s : State} {rest : List Turn} (ht : s.env.turns = .reset :: rest) :
    step s = .next (s.nextTurn rest).resetCore := by
  simp only [step, takeTurn, ht]

/-- The words CMD takes while an error is recorded are those of SRESET and CLRERR without operand bits, so each is the only one of its
OPCODE (20_memory R54, R57). -/
theorem acceptedInError_of_opcode {op : BitVec 8} (hop : op = 0x31 ∨ op = 0x30) :
    Claims.AcceptedInError op (op.setWidth 32) := by
  refine fun s => ⟨fun hb => ?_, fun hb => ?_, fun c hb he hc hne => hostWrite_cmd_of_err hb he ?_ ?_⟩
  · exact hostWrite_cmd_latches hb (.inr (hop.imp (congrArg _) (congrArg _)))
  · exact (hostWrite_of_busy hb _ _).trans (s.recordError_code .busyWrite)
  all_goals
    rintro rfl
    exact hne (hc ▸ rfl)

end Sys2Proof.Machine

namespace Sys2Proof.Proofs

open Sys2Proof.Machine Sys2Proof.Claims

/-- Settles O30: the word 0 is the encoding of NOP, and its core step is NOP's in the state before the write. -/
theorem nopChangesNothing : Obligations.NopChangesNothing := by
  unfold Obligations.NopChangesNothing
  refine ⟨fun _ => rfl, latchedWord_of_row .nop, fun s hb he => ?_, fun s hi hb he => ?_⟩
  · exact hostWrite_cmd_of_err hb he (by decide) (by decide)
  · have hlatch : s.hostWrite 0 0x00000000 = { s with pending := some 0x00000000 } := hostWrite_cmd_latches hb (.inl he)
    rw [hlatch]
    exact ⟨rfl, coreStep_of_latched hi hb .nop⟩

/-- Settles O31: SRESET and a reset turn both answer `resetCore`, which takes nothing but the world around the core from the state. -/
theorem softAndHardResetGiveTheResetState : Obligations.SoftAndHardResetGiveTheResetState := by
  unfold Obligations.SoftAndHardResetGiveTheResetState
  exact ⟨fun _ => rfl, fun _ _ => step_of_resetTurn, latchedWord_of_row .sreset, acceptedInError_of_opcode (.inr rfl)⟩

/-- Settles O32. -/
theorem clrerrClearsTheErrorAndNothingElse : Obligations.ClrerrClearsTheErrorAndNothingElse := by
  unfold Obligations.ClrerrClearsTheErrorAndNothingElse
  exact ⟨fun _ => rfl, latchedWord_of_row .clrerr, acceptedInError_of_opcode (.inl rfl)⟩

end Sys2Proof.Proofs

/-! PROOFS. The obligations of 60_exceptions: the order of the conditions, precise and sticky errors, the codes, the stuck step, runs that go
on, and what data do not decide. -/

namespace Sys2Proof.Machine

-- ## When the machine stops (60_exceptions R207, R211)

theorem coreStep_of_broken {s : State} (hi : ¬ s.Inv) (hb : s.busy = true) : coreStep s = .fault .invariantBroken :=
  (if_neg (by simp [hb])).trans (if_neg hi)

theorem coreStep_goesOn {s : State} (hi : s.Inv) : goesOn (coreStep s) := by
  cases hp : s.pending with
  | some c =>
    rw [coreStep_of_pending hi hp]
    exact execute_answers_next c _
  | none =>
    cases ha : s.auto with
    | true => exact ⟨_, coreStep_of_auto hi hp ha⟩
    | false => exact ⟨_, coreStep_of_idle (s.busy_eq_false_iff.mpr ⟨hp, ha⟩)⟩

/-- Only a core step can stop the machine, and from the invariants it does not. -/
theorem step_goesOn {s : State} (hi : s.Inv) : goesOn (step s) := by
  unfold step takeTurn
  split
  next rest _ => exact coreStep_goesOn (s := s.nextTurn rest) hi
  next => exact ⟨_, rfl⟩
  next => exact ⟨_, rfl⟩
  next =>
    split
    · exact coreStep_goesOn hi
    · exact ⟨_, rfl⟩

-- ## What an event does to the error record (60_exceptions R201, R202, R205, R212)

/-- The event from `s` to `s'` leaves ERR and ERRCODE as they are. -/
def SameError (s s' : State) : Prop := s'.err = s.err ∧ s'.errcode = s.errcode

/-- No error is recorded in `s'`. -/
def NoError (s' : State) : Prop := s'.err = false ∧ s'.errcode = 0

/-- A command leaves the record alone, or fails and records its error, or is one of the two that clear the record. -/
theorem Effect.error_cases {i : Instr} {s s' : State} (h : Effect s i s') :
    SameError s s' ∨ (∃ e, Failure s i e ∧ s' = s.recordError e)
      ∨ ((i = .sreset ∧ s' = s.resetCore) ∨ (i = .clrerr ∧ s' = s.clearError)) := by
  cases h with
  | error i e hf => exact .inr (.inl ⟨e, hf, rfl⟩)
  | sreset => exact .inr (.inr (.inl ⟨rfl, rfl⟩))
  | clrerr => exact .inr (.inr (.inr ⟨rfl, rfl⟩))
  | _ => exact .inl ⟨rfl, rfl⟩

/-- The latched word is exactly that of SRESET or of CLRERR (43_control R191, R192). -/
abbrev ClearingWordPending (s : State) : Prop := s.pending = some 0x00000030 ∨ s.pending = some 0x00000031

theorem coreStep_error_cases {s s' : State} (h : coreStep s = .next s') :
    SameError s s' ∨ (∃ e, s' = s.takePending.recordError e)
      ∨ (ClearingWordPending s ∧ s'.pending = none ∧ NoError s') := by
  rcases coreStep_effect h with ⟨-, rfl⟩ | ⟨-, c, hp, ⟨i, hd, heff⟩ | ⟨e, -, rfl⟩⟩ | ⟨-, -, -, rfl⟩
  · exact .inl ⟨rfl, rfl⟩
  · rcases heff.error_cases with hsame | ⟨e, -, rfl⟩ | ⟨rfl, rfl⟩ | ⟨rfl, rfl⟩
    · exact .inl hsame
    · exact .inr (.inl ⟨e, rfl⟩)
    · exact .inr (.inr ⟨.inl (hp.trans (congrArg some (eq_opcode_of_decode hd rfl))), rfl, rfl, rfl⟩)
    · exact .inr (.inr ⟨.inr (hp.trans (congrArg some (eq_opcode_of_decode hd rfl))), rfl, rfl, rfl⟩)
  · exact .inr (.inl ⟨_, rfl⟩)
  · exact .inl (State.autoStep_ignoresError.keeps s)

theorem hostWrite_error_cases (s : State) (o : Offset) (x : Word) :
    SameError s (s.hostWrite o x) ∨ ∃ e, s.hostWrite o x = s.recordError e := by
  rcases hostWrite_cases s o x with h | ⟨e, h⟩ | ⟨-, h⟩ | h | h | h | ⟨j, h⟩ | ⟨i, -, h⟩ <;> rw [h]
  case inr.inl => exact .inr ⟨e, rfl⟩
  all_goals exact .inl ⟨rfl, rfl⟩

theorem hostTurn_error_cases (s : State) :
    SameError s s.hostTurn ∨ ∃ rest e, s.hostTurn = (s.nextAccess rest).recordError e := by
  rcases hostTurn_cases s with h | ⟨rest, h⟩ | ⟨rest, o, x, h⟩ | ⟨rest, o, h⟩ <;> rw [h]
  · exact .inl ⟨rfl, rfl⟩
  · exact .inl ⟨rfl, rfl⟩
  · exact (hostWrite_error_cases (s.nextAccess rest) o x).imp_right fun ⟨e, he⟩ => ⟨rest, e, he⟩
  · obtain ⟨env, hr⟩ := hostRead_frame (s.nextAccess rest) o
    exact .inl (hr ▸ ⟨rfl, rfl⟩)

/-- `step_cases` by agent: the core, the host, the platform, each in the state `s.nextTurn l` that its turn leaves. -/
theorem step_agent_cases {s s' : State} (h : step s = .next s') :
    ∃ l, (coreStep (s.nextTurn l) = .next s' ∧ (s.env.turns = [] ∨ ∃ rest, s.env.turns = .core :: rest))
      ∨ s' = (s.nextTurn l).hostTurn
      ∨ (s' = (s.nextTurn l).resetCore ∧ ∃ rest, s.env.turns = .reset :: rest) := by
  rcases step_cases h with ⟨hc, ht, -⟩ | ⟨rfl, ht, -⟩ | ⟨rest, ht, hc⟩ | ⟨rest, -, rfl⟩ | ⟨rest, ht, rfl⟩
  · exact ⟨[], .inl ⟨by rwa [State.nextTurn_of_turns ht], .inl ht⟩⟩
  · exact ⟨[], .inr (.inl (by rw [State.nextTurn_of_turns ht]))⟩
  · exact ⟨rest, .inl ⟨hc, .inr ⟨rest, ht⟩⟩⟩
  · exact ⟨rest, .inr (.inl rfl)⟩
  · exact ⟨rest, .inr (.inr ⟨rfl, rest, ht⟩)⟩

/-- The step from `s` to `s'` is one of those that clear the record: Reset, or the core takes the word of SRESET or CLRERR. -/
def ClearingStep (s s' : State) : Prop :=
  (∃ rest, s.env.turns = .reset :: rest)
    ∨ (ClearingWordPending s ∧ s'.pending = none ∧ (s.env.turns = [] ∨ ∃ rest, s.env.turns = .core :: rest))

/-- Everything a step can do to the error record; an error is recorded in a state `r` with the record of `s`. -/
theorem step_error_cases {s s' : State} (h : step s = .next s') :
    SameError s s' ∨ (∃ r e, SameError s r ∧ s' = r.recordError e) ∨ (ClearingStep s s' ∧ NoError s') := by
  obtain ⟨l, ⟨hc, hturns⟩ | rfl | ⟨rfl, hreset⟩⟩ := step_agent_cases h
  · rcases coreStep_error_cases hc with hsame | ⟨e, he⟩ | ⟨hword, hp, hno⟩
    · exact .inl hsame
    · exact .inr (.inl ⟨(s.nextTurn l).takePending, e, ⟨rfl, rfl⟩, he⟩)
    · exact .inr (.inr ⟨.inr ⟨hword, hp, hturns⟩, hno⟩)
  · rcases hostTurn_error_cases (s.nextTurn l) with hsame | ⟨ops, e, he⟩
    · exact .inl hsame
    · exact .inr (.inl ⟨(s.nextTurn l).nextAccess ops, e, ⟨rfl, rfl⟩, he⟩)
  · exact .inr (.inr ⟨.inl hreset, rfl, rfl⟩)

-- ## The codes recorded (60_exceptions R200)

theorem CmdError.code_toNat_le (e : CmdError) : e.code.toNat ≤ 6 := by cases e <;> decide

theorem State.recordError_codeRecordable {s : State} (h : s.CodeRecordable) (e : CmdError) :
    (s.recordError e).CodeRecordable := by
  rw [State.CodeRecordable, State.recordError_errcode]
  split
  · exact h
  · exact e.code_toNat_le

-- ## The conditions of R203, on the latched word and as failures of its command

theorem le_toNat_of_supported_eq_false {var : BitVec 3} (h : supported var = false) : 3 ≤ var.toNat := by
  revert var
  decide

/-- A word with an assigned OPCODE and no reserved bit is the command of its row of the map. -/
theorem decode_of_row {c : Word} {row : Mnemonic} (hop : c.extractLsb' 0 8 = row.opcode)
    (hm : c &&& ~~~ Claims.maskOf (c.extractLsb' 0 8) = 0) :
    decode c = .command (row.instr (shamtField c) (variantField c)) := by
  rw [hop, maskOf_opcode] at hm
  exact decode_of_wellFormed c row hop (Format.wordWellFormed_of_masked hm)

theorem coreStep_of_failure {s : State} {c : Word} {row : Mnemonic} {e : CmdError} (hi : s.Inv) (hp : s.pending = some c)
    (hop : c.extractLsb' 0 8 = row.opcode) (hm : c &&& ~~~ Claims.maskOf (c.extractLsb' 0 8) = 0)
    (hf : Failure (Claims.taken s) (row.instr (shamtField c) (variantField c)) e) :
    coreStep s = .next (Claims.recorded e.code (Claims.taken s)) :=
  (coreStep_of_command hi hp (decode_of_row hop hm)).trans (exec_of_failure hf)

/-- A command fails only under a condition of R203 on its word. -/
theorem Failure.condition {s : State} {c : Word} {i : Instr} {e : CmdError} (hd : decode c = .command i) (hf : Failure s i e) :
    Claims.BadVariant c ∨ Claims.NoVariant c s ∨ Claims.OutOfSequence c s := by
  obtain ⟨hop, -⟩ := opcodeField_of_decode hd
  cases hf with
  | badVariant var hsup =>
    have hvar : Instr.init (variantField c) = .init var := instr_of_decode hd
    obtain rfl := Instr.init.inj hvar
    exact .inl ⟨hop, le_toNat_of_supported_eq_false hsup⟩
  | noVariant i hi hv =>
    obtain rfl | rfl := hi
    · exact .inr (.inl ⟨.inl hop, hv⟩)
    · exact .inr (.inl ⟨.inr hop, hv⟩)
  | blockActive i hi _ ha =>
    obtain rfl | rfl := hi
    · exact .inr (.inr (.inl ⟨.inl hop, ha⟩))
    · exact .inr (.inr (.inl ⟨.inr hop, ha⟩))
  | round h => exact .inr (.inr (.inr (.inl ⟨hop, h⟩)))
  | endBlock h => exact .inr (.inr (.inr (.inr ⟨hop, h⟩)))

-- ## Control without data (60_exceptions R208)

section
variable {s r : State} (hc : Claims.SameControl s r)
include hc

theorem busy_eq_of_sameControl : s.busy = r.busy := by
  obtain ⟨-, -, -, -, -, -, hp, ha⟩ := hc
  rw [State.busy, State.busy, hp, ha]

theorem inv_iff_of_sameControl : s.Inv ↔ r.Inv := by
  obtain ⟨herr, hcode, hv, ha, hvar, ht, hp, hauto⟩ := hc
  simp only [State.Inv, State.rounds, herr, hcode, hv, ha, hvar, ht, hp, hauto]

theorem sameControl_takePending : Claims.SameControl s.takePending r.takePending := by
  obtain ⟨herr, hcode, hv, ha, hvar, ht, -, hauto⟩ := hc
  exact ⟨herr, hcode, hv, ha, hvar, ht, rfl, hauto⟩

theorem sameControl_recordError (e : CmdError) : Claims.SameControl (s.recordError e) (r.recordError e) := by
  obtain ⟨herr, hcode, hv, ha, hvar, ht, hp, hauto⟩ := hc
  simp [Claims.SameControl, herr, hcode, hv, ha, hvar, ht, hp, hauto]

theorem sameControl_roundStep : Claims.SameControl s.roundStep r.roundStep := by
  obtain ⟨herr, hcode, hv, ha, hvar, ht, hp, hauto⟩ := hc
  exact ⟨herr, hcode, hv, ha, hvar, congrArg (· + 1) ht, hp, hauto⟩

theorem sameControl_autoStep : Claims.SameControl s.autoStep r.autoStep := by
  have hround := sameControl_roundStep hc
  obtain ⟨herr, hcode, hv, -, hvar, ht, hp, -⟩ := hc
  simp only [State.autoStep, State.rounds, ht, hvar]
  split
  · exact hround
  · exact ⟨herr, hcode, hv, rfl, hvar, rfl, hp, rfl⟩

/-- A command's failures are decided by the control fields. -/
theorem Failure.of_sameControl {i : Instr} {e : CmdError} (hf : Failure s i e) : Failure r i e := by
  obtain ⟨-, -, hv, ha, hvar, ht, -, -⟩ := hc
  cases hf with
  | badVariant var h => exact .badVariant var h
  | noVariant i hi h => exact .noVariant i hi (hv ▸ h)
  | blockActive i hi h h' => exact .blockActive i hi (hv ▸ h) (ha ▸ h')
  | round h => exact .round (by rwa [State.rounds, ← ha, ← ht, ← hvar])
  | endBlock h => exact .endBlock (by rwa [State.rounds, ← ha, ← ht, ← hvar])

end

theorem exec_of_aluOrUnit {i : Instr} (hi : AluOrUnit i) (s : State) : ∃ x, exec i s = .next (s.setResult x) := by
  cases i
  case nop | init | block | beginBlock | round | endBlock | sreset | clrerr =>
    exact absurd hi (by simp [AluOrUnit, Instr.mnemonic, Mnemonic.opcode])
  all_goals exact ⟨_, rfl⟩

/-- The same command, from a state with the same control fields, has the same effect on them. -/
theorem Effect.sameControl {s s' r : State} {i : Instr} (h : Effect s i s') (hc : Claims.SameControl s r) :
    ∃ r', exec i r = .next r' ∧ Claims.SameControl s' r' := by
  have ⟨herr, hcode, hv, ha, hvar, ht, hp, hauto⟩ := hc
  cases h with
  | nop => exact ⟨r, rfl, hc⟩
  | result i x hi =>
    obtain ⟨y, hy⟩ := exec_of_aluOrUnit hi r
    exact ⟨_, hy, hc⟩
  | error i e hf =>
    refine ⟨_, exec_of_failure (hf.of_sameControl hc), ?_⟩
    rw [← State.recordError_code]
    exact sameControl_recordError hc e
  | init var hsup => exact ⟨_, exec_init hsup, herr, hcode, rfl, rfl, rfl, rfl, hp, hauto⟩
  | block hv' ha' => exact ⟨_, exec_block (hv ▸ hv') (ha ▸ ha'), herr, hcode, hv, rfl, hvar, rfl, hp, rfl⟩
  | beginBlock hv' ha' => exact ⟨_, exec_beginBlock (hv ▸ hv') (ha ▸ ha'), herr, hcode, hv, rfl, hvar, rfl, hp, hauto⟩
  | round ha' ht' => exact ⟨_, exec_round (ha ▸ ha') (by rwa [State.rounds, ← ht, ← hvar]), sameControl_roundStep hc⟩
  | endBlock ha' ht' =>
    exact ⟨_, exec_endBlock (ha ▸ ha') (by rwa [State.rounds, ← ht, ← hvar]), herr, hcode, hv, rfl, hvar, rfl, hp, hauto⟩
  | sreset => exact ⟨_, rfl, rfl, rfl, rfl, rfl, rfl, rfl, rfl, rfl⟩
  | clrerr => exact ⟨_, rfl, rfl, rfl, hv, ha, hvar, ht, hp, hauto⟩

/-- A core step that goes on goes on from every state with the same control fields, to the same control fields. -/
theorem coreStep_sameControl {s s' r : State} (hc : Claims.SameControl s r) (h : coreStep s = .next s') :
    ∃ r', coreStep r = .next r' ∧ Claims.SameControl s' r' := by
  have ⟨_, _, _, _, _, _, hpr, hautor⟩ := hc
  rcases coreStep_effect h with ⟨hb, rfl⟩ | ⟨hi, c, hp, ⟨i, hd, heff⟩ | ⟨e, hd, rfl⟩⟩ | ⟨hi, hp, ha, rfl⟩
  · exact ⟨r, coreStep_of_idle (busy_eq_of_sameControl hc ▸ hb), hc⟩
  · rw [coreStep_of_command ((inv_iff_of_sameControl hc).mp hi) (hpr ▸ hp) hd]
    exact heff.sameControl (sameControl_takePending hc)
  · rw [coreStep_of_pending ((inv_iff_of_sameControl hc).mp hi) (hpr ▸ hp), execute_of_decodeError hd]
    exact ⟨_, rfl, sameControl_recordError (sameControl_takePending hc) _⟩
  · exact ⟨_, coreStep_of_auto ((inv_iff_of_sameControl hc).mp hi) (hpr ▸ hp) (hautor ▸ ha), sameControl_autoStep hc⟩

end Sys2Proof.Machine

namespace Sys2Proof.Proofs

open Sys2Proof.Machine Sys2Proof.Claims

/-- Settles O39. -/
theorem coreStepFromABrokenInvariantIsStuck : Obligations.CoreStepFromABrokenInvariantIsStuck := by
  unfold Obligations.CoreStepFromABrokenInvariantIsStuck
  exact fun _ => coreStep_of_broken

/-- Settles O38, by induction on the number of steps: each step goes on and keeps the invariants. -/
theorem noRunStopsFromTheInvariants : Obligations.NoRunStopsFromTheInvariants := by
  unfold Obligations.NoRunStopsFromTheInvariants
  intro n
  induction n with
  | zero => exact fun s _ => ⟨s, rfl⟩
  | succ n ih =>
    intro s hi
    obtain ⟨s₁, hs⟩ := step_goesOn hi
    obtain ⟨s', hn⟩ := ih s₁ (step_keeps_inv hi hs)
    exact ⟨s', by simp only [runSteps, hs, andThen, hn]⟩

/-- Settles O37: a step keeps the code, records one of the six, or clears it. -/
theorem everyStepKeepsTheCodeRecordable : Obligations.EveryStepKeepsTheCodeRecordable := by
  unfold Obligations.EveryStepKeepsTheCodeRecordable
  intro s s' hrec h
  rcases step_error_cases h with ⟨-, hcode⟩ | ⟨r, e, ⟨-, hcode⟩, rfl⟩ | ⟨-, -, hzero⟩
  · rwa [State.CodeRecordable, hcode]
  · exact State.recordError_codeRecordable (by rwa [State.CodeRecordable, hcode]) e
  · rw [State.CodeRecordable, hzero]
    decide

/-- Settles O42: a step keeps the record, records an error over it, which keeps the first, or is a clearing step. -/
theorem onlyClrerrSresetAndResetClearTheError : Obligations.OnlyClrerrSresetAndResetClearTheError := by
  unfold Obligations.OnlyClrerrSresetAndResetClearTheError
  intro s s' herr h
  rcases step_error_cases h with ⟨herr', hcode⟩ | ⟨r, e, ⟨herr', hcode⟩, rfl⟩ | ⟨hclear, -⟩
  · exact .inl ⟨herr'.trans herr, hcode⟩
  · refine .inl ⟨r.recordError_err e, ?_⟩
    rw [State.recordError_errcode, if_pos (herr'.trans herr), hcode]
  · exact .inr hclear

/-- Settles O41: where the record rises, the event recorded an error in the old state, PENDING taken or not, and changed nothing else. -/
theorem errorsArePrecise : Obligations.ErrorsArePrecise := by
  unfold Obligations.ErrorsArePrecise
  refine ⟨fun s s' h herr herr' => ?_, fun s o x herr herr' => ?_⟩
  · rcases coreStep_error_cases h with ⟨hsame, -⟩ | ⟨e, rfl⟩ | ⟨-, -, hno, -⟩
    · simp [hsame, herr] at herr'
    · rw [State.recordError_eq]
      rfl
    · simp [hno] at herr'
  · rcases hostWrite_error_cases s o x with ⟨hsame, -⟩ | ⟨e, he⟩
    · simp [hsame, herr] at herr'
    · rw [he, State.recordError_eq]

/-- Settles O43: where one core step goes on, so does the other, and alike; where neither does, both are stuck. -/
theorem dataDecideNoErrorAndNoControl : Obligations.DataDecideNoErrorAndNoControl := by
  unfold Obligations.DataDecideNoErrorAndNoControl
  intro s r hc
  by_cases hi : s.Inv
  · obtain ⟨s', hs⟩ := coreStep_goesOn hi
    obtain ⟨r', hr, hc'⟩ := coreStep_sameControl hc hs
    exact .inl ⟨s', r', hs, hr, hc'⟩
  · cases hb : s.busy with
    | false => exact .inl ⟨s, r, coreStep_of_idle hb, coreStep_of_idle (busy_eq_of_sameControl hc ▸ hb), hc⟩
    | true =>
      exact .inr ⟨coreStep_of_broken hi hb,
        coreStep_of_broken (mt (inv_iff_of_sameControl hc).mpr hi) (busy_eq_of_sameControl hc ▸ hb)⟩

/-- Settles O7: each condition is a failure of the word's command, and the command has no other failures. -/
theorem firstErrorInOrderIsRecorded : Obligations.FirstErrorInOrderIsRecorded := by
  unfold Obligations.FirstErrorInOrderIsRecorded
  intro s c hi hp
  refine ⟨fun hop => coreStep_of_decodeError hi hp (decode_of_unassigned hop),
    fun hop hm => coreStep_of_decodeError hi hp (decode_of_reservedBits hop hm), fun hassigned hm => ⟨?_, ?_, ?_, ?_⟩⟩
  · rintro ⟨hop, hvar⟩
    exact coreStep_of_failure hi hp (row := .init) hop hm (.badVariant _ (supported_eq_false hvar))
  · rintro ⟨hop | hop, hv⟩
    · exact coreStep_of_failure hi hp (row := .block) hop hm (.noVariant _ (.inl rfl) hv)
    · exact coreStep_of_failure hi hp (row := .beginBlock) hop hm (.noVariant _ (.inr rfl) hv)
  · rintro hnv (⟨hop, ha⟩ | ⟨hop, h⟩ | ⟨hop, h⟩)
    · have hv : s.valid = true := by simpa [hop] using hnv
      obtain hop | hop := hop
      · exact coreStep_of_failure hi hp (row := .block) hop hm (.blockActive _ (.inl rfl) hv ha)
      · exact coreStep_of_failure hi hp (row := .beginBlock) hop hm (.blockActive _ (.inr rfl) hv ha)
    · exact coreStep_of_failure hi hp (row := .round) hop hm (.round h)
    · exact coreStep_of_failure hi hp (row := .endBlock) hop hm (.endBlock h)
  · intro hbv hnv hseq
    obtain ⟨row, hop⟩ := exists_opcode_of_assigned hassigned
    have hd := decode_of_row hop.symm hm
    obtain ⟨s', hs⟩ := coreStep_goesOn hi
    have heff : Effect s.takePending _ s' := exec_effect ((coreStep_of_command hi hp hd).symm.trans hs)
    refine ⟨s', hs, fun herr => ?_⟩
    rcases heff.error_cases with ⟨hsame, -⟩ | ⟨e, hf, -⟩ | ⟨-, rfl⟩ | ⟨-, rfl⟩
    · exact hsame.trans herr
    · rcases hf.condition hd with h | h | h
      · exact absurd h hbv
      · exact absurd h hnv
      · exact absurd h hseq
    · rfl
    · rfl

end Sys2Proof.Proofs

/-! PROOFS. The obligation of 70_reset_and_hazards: how many core steps a latched word takes. -/

namespace Sys2Proof.Machine

-- ## The core steps of a latched word (70_reset_and_hazards R260)

/-- After a command the core is idle, unless the command is a BLOCK and nothing keeps it from starting. -/
theorem Effect.busy_eq_false {i : Instr} {s s' : State} (h : Effect s i s') (hb : s.busy = false)
    (hne : ¬ (i = .block ∧ s.valid = true ∧ s.active = false)) : s'.busy = false := by
  cases h with
  | block hv ha => exact absurd ⟨rfl, hv, ha⟩ hne
  | error i e => exact (s.recordError_busy e).trans hb
  | sreset => rfl
  | _ => exact hb

section
variable {s : State} {c : Word}

theorem State.busy_of_pending (hp : s.pending = some c) : s.busy = true := by simp [State.busy, hp]

theorem takePending_busy_of_pending (hi : s.Inv) (hp : s.pending = some c) : s.takePending.busy = false := by
  simp [State.busy, State.auto_eq_false_of_pending hi hp]

theorem coreStep_idle_of_pending (hi : s.Inv) (hp : s.pending = some c)
    (hne : ¬ (c = encode .block ∧ s.valid = true ∧ s.active = false)) : ∃ s', coreStep s = .next s' ∧ s'.busy = false := by
  have hb := takePending_busy_of_pending hi hp
  obtain ⟨s', hs⟩ := coreStep_goesOn hi
  refine ⟨s', hs, ?_⟩
  rcases coreStep_effect hs with ⟨hidle, rfl⟩ | ⟨-, c', hp', ⟨i, hd, heff⟩ | ⟨e, -, rfl⟩⟩ | ⟨-, hnone, -⟩
  · exact hidle
  · obtain rfl : c = c' := Option.some.inj (hp.symm.trans hp')
    refine heff.busy_eq_false hb ?_
    rintro ⟨rfl, hv, ha⟩
    exact hne ⟨eq_of_decode_eq_command hd (decode_encode .block), hv, ha⟩
  · exact (State.recordError_busy _ _).trans hb
  · simp [hp] at hnone

/-- A latched BLOCK that can start: its first step, N rounds and the end. -/
theorem runsToIdle_of_block (hi : s.Inv) (hp : s.pending = some (encode .block)) (hv : s.valid = true)
    (ha : s.active = false) : ∃ s', RunsToIdle (s.rounds + 2) s s' := by
  have hc : coreStep s = .next { s.takePending.beginStep with auto := true } :=
    (coreStep_of_command hi hp (decode_encode .block)).trans (exec_block hv ha)
  obtain ⟨s', hrun⟩ := runsToIdle_of_auto (n := s.rounds) (coreStep_keeps_inv hi hc) rfl rfl (Nat.zero_add _)
  exact ⟨s', .busy (State.busy_of_pending hp) hc hrun⟩

end

end Sys2Proof.Machine

namespace Sys2Proof.Proofs

open Sys2Proof.Machine Sys2Proof.Claims

/-- Settles O29: 0x21 is the word of BLOCK, and a BLOCK that starts is the only command that leaves the core busy. -/
theorem coreStepCountsAreOneAndNPlusTwo : Obligations.CoreStepCountsAreOneAndNPlusTwo := by
  unfold Obligations.CoreStepCountsAreOneAndNPlusTwo
  intro s c hi hp
  refine ⟨coreStep_idle_of_pending hi hp, ?_⟩
  rintro rfl hv ha
  obtain ⟨s', hrun⟩ := runsToIdle_of_block hi hp hv ha
  exact ⟨hrun.busy_before, s', hrun.coreSteps_eq, hrun.busy_eq_false⟩

end Sys2Proof.Proofs
